-- ==== Sys2Proof/Word.lean ====
section
/-! DEFINITION. The data types of the wire (00_scope.md R5, R7): bytes, bit positions of the buffer and the
15-byte frame as a value. Nothing here is signed. -/

namespace Sys2Proof

/-- An unsigned 8-bit data item of the wire, 0..255 (R5 `BYTE_W`, R7). -/
abbrev Byte := BitVec 8

/-- An offset of RawFrame and a value of FrameCursor, 0..14 (R12, R30, decision D16). -/
abbrev Offset := Fin 15

/-- Fifteen bytes as a value, offset 0 first: what a `FrameError` carries (R24) and what RAW_INIT is (R6). -/
abbrev RawFrame := Vector Byte 15

end Sys2Proof
end

