-- ==== Sys2Proof/Config.lean ====
section
/-! DEFINITION. The fixed constants of 00_scope.md R5 and the parameters of R6. The constants are not configurable and are
plain definitions. The parameters are a record that the block's operations take as an argument. A run carries it and no step writes
it (log entry 1), so that every statement about all states is a statement for all their values. -/

namespace Sys2Proof

/-- `MAGIC0`, the required value of byte 0 (R5, R51). -/
def Config.magic0 : Byte := 0x01#8

/-- `MAGIC1`, the required value of byte 1 (R5, R51). -/
def Config.magic1 : Byte := 0x03#8

/-- `INIT_SEQ`, the required value of byte 2 while AwaitingFirstFrame (R5, R52). -/
def Config.initSeq : Byte := 0x02#8

/-- `CSUM_POS`, the offset of the transmitted checksum (R5). -/
def Config.csumPos : Offset := 14

/-- `CSUM_LAST`, the last offset the checksum covers (R5). -/
def Config.csumLast : Offset := 13

/-- `POS_SEQ` (R5). -/
def Config.posSeq : Offset := 2

/-- `POS_ENTROPY` (R5). -/
def Config.posEntropy : Offset := 5

/-- `POS_FLAGS` (R5). -/
def Config.posFlags : Offset := 6

/-- `POS_POWER` (R5). -/
def Config.posPower : Offset := 7

/-- `POS_CONFIG` (R5). -/
def Config.posConfig : Offset := 9

/-- `POS_BRAKE` (R5). -/
def Config.posBrake : Offset := 10

/-- `BIT_PAS`, pedal assist (R5). -/
def Config.bitPas : Nat := 1

/-- `BIT_CRUISE`, cruise control (R5). -/
def Config.bitCruise : Nat := 2

/-- `BIT_SOFT`, soft start (R5). -/
def Config.bitSoft : Nat := 3

/-- `INVALID_POLICY` (R6, 90_conflicts.md C1): what a failed check does to the frame in progress. -/
inductive InvalidPolicy where
  /-- The frame ends at the failing byte; the spec's normative value (R70, R110). -/
  | terminate
  /-- The frame runs to offset 14 and is rejected there (R89). -/
  | collect
  deriving DecidableEq, Repr

/-- The open parameters of R6. `TIME_UNIT` is not interpreted and has no field. -/
structure Config where
  /-- `INVALID_POLICY`. -/
  policy  : InvalidPolicy
  /-- `TS_WIDTH`, the width in bits of `now`, `last_ts` and `interval`; 0 removes the timing tracker (R145). -/
  tsWidth : Nat
  /-- `RAW_INIT`, what RESET leaves in RawFrame; any 15 bytes (R22, D10). -/
  rawInit : RawFrame
  deriving DecidableEq, Repr

end Sys2Proof
end

