-- ==== Sys2Proof/Machine/State.lean ====
section
/-! DEFINITION. The state of the block (10_state.md R10 to R17), the event of a step (R24), and a run of the block: the block with
the configuration (R6), the inputs still to come and the outputs of the last operation (R23) around it. Plain data. -/

namespace Sys2Proof.Machine

/-- RawFrame as a list of (offset, byte) cells: offsets strictly rising, no cell equal to `Memory.unlisted`. -/
abbrev Memory := List Host.Cell

/-- What an offset without a cell reads as (DESIGN CHOICE, log entry 2). -/
def Memory.unlisted : Byte := 0x00#8

/-- The reason of a `FrameError` (R24, 60_exceptions.md R150). -/
inductive Reason where
  /-- Byte 0 or 1 wrong. -/
  | prefixMismatch
  /-- The first frame's sequence is not 2. -/
  | unexpectedInitialSequence
  /-- Wrong checksum, the zero-checksum case included. -/
  | checksumMismatch
  deriving DecidableEq, Repr

/-- The values of `err` (R16): code 3 is never stored. -/
inductive PendingErr where
  /-- Code 0. -/
  | none
  /-- Code 1, `PrefixMismatch`. -/
  | prefixMismatch
  /-- Code 2, `UnexpectedInitialSequence`. -/
  | unexpectedInitialSequence
  deriving DecidableEq, Repr

/-- `DecodedFrame` (R24). -/
structure DecodedFrame where
  /-- `sequenceNumber`, port `seq`. -/
  sequenceNumber : Byte
  /-- `entropyKey`, port `entropy`. -/
  entropyKey     : Byte
  /-- `powerSetting`, port `power`. -/
  powerSetting   : Byte
  /-- `configFlags`, port `config`. -/
  configFlags    : Byte
  /-- `brakingLevel`, port `braking`. -/
  brakingLevel   : Byte
  /-- `pedalAssist`, port `pas`. -/
  pedalAssist    : Bool
  /-- `cruiseControl`, port `cruise`. -/
  cruiseControl  : Bool
  /-- `softStart`, port `soft`. -/
  softStart      : Bool
  /-- `interval`, an unsigned number of TS_WIDTH bits. -/
  interval       : Nat
  deriving DecidableEq, Repr

/-- `FrameError` (R24): the reason and the whole RawFrame by value. -/
structure FrameError where
  /-- `reason`. -/
  reason : Reason
  /-- `raw`, after the store of the byte that caused the event (43_field_extract.md R130). -/
  raw    : RawFrame
  deriving DecidableEq, Repr

/-- `FrameEvent`, the output of a step (R24). -/
inductive FrameEvent where
  | none
  | decoded (d : DecodedFrame)
  | rejected (e : FrameError)
  deriving DecidableEq, Repr

/-- The byte fields of 43_field_extract.md R126. -/
structure ByteFields where
  /-- `raw[2]`. -/
  sequenceNumber : Byte
  /-- `raw[5]`. -/
  entropyKey     : Byte
  /-- `raw[7]`. -/
  powerSetting   : Byte
  /-- `raw[9]`. -/
  configFlags    : Byte
  /-- `raw[10]`. -/
  brakingLevel   : Byte
  deriving DecidableEq, Repr

/-- The flag fields of 43_field_extract.md R127. -/
structure FlagFields where
  /-- `bit(raw[6], 1)`. -/
  pedalAssist   : Bool
  /-- `bit(raw[6], 2)`. -/
  cruiseControl : Bool
  /-- `bit(raw[6], 3)`. -/
  softStart     : Bool
  deriving DecidableEq, Repr

/-- The value a sub-operation computes and does not store (log entry 7). -/
inductive SubValue where
  /-- The last operation was not such a sub-operation. -/
  | none
  /-- `csum_ok` of `XACC.CHK` (R102). -/
  | csumOk (ok : Bool)
  /-- The result of `BIT` (R125). -/
  | bit (set : Bool)
  /-- The result of `FIELDS` (R126). -/
  | fields (f : ByteFields)
  /-- The result of `FLAGS` (R127). -/
  | flags (f : FlagFields)
  /-- The result of `TS.INTERVAL` (R141). -/
  | interval (t : Nat)
  deriving DecidableEq, Repr

/-- The input ports of one step (R23). `clk` is not architectural. -/
structure Stimulus where
  /-- `rst`. -/
  rst     : Bool
  /-- `in_valid`. -/
  inValid : Bool
  /-- `in_data`. -/
  data    : Byte
  /-- `now`; the port carries the low TS_WIDTH bits (log entry 3). -/
  now     : Nat
  deriving DecidableEq, Repr

/-- The state of the block: the seven elements of 10_state.md R10 "and nothing else". Nothing of R18 is in it: the byte, the time and
the configuration are arguments of the block's operations, the event is their result (20_memory.md R40). -/
structure Block where
  /-- `raw` (R11). -/
  raw     : Memory
  /-- `cursor` (R12): the offset at which the next byte will be stored. -/
  cursor  : Offset
  /-- `acc` (R13). -/
  acc     : Byte
  /-- `frame_ok` (R14). -/
  frameOk : Bool
  /-- `synced` (R15): false is AwaitingFirstFrame, true is Synchronized. -/
  synced  : Bool
  /-- `err` (R16). -/
  err     : PendingErr
  /-- `last_ts` (R17), an unsigned number of TS_WIDTH bits. -/
  lastTs  : Nat
  deriving DecidableEq, Repr

/-- A run of the block: the block, and around it what a step function of one argument needs and R18 keeps out of the block's state
(log entry 16).
The block's operations take a `Block` and cannot read the fields below, but for the configuration and the input of the step, which
they are handed. -/
structure State extends Block where
  /-- INVALID_POLICY, TS_WIDTH, RAW_INIT (R6, R18 (f)); no step writes it (log entry 1). -/
  config   : Config
  /-- The event of the last operation (R24, R18 (d); log entry 6). -/
  event    : FrameEvent
  /-- The value of the last operation, if it was a computing sub-operation (log entry 7). -/
  value    : SubValue
  /-- The inputs of the steps still to come, next first (R18 (b), (c); log entry 5). -/
  stimulus : List Stimulus
  deriving DecidableEq, Repr

/-- The reasons a step can stop with a fault: none. "No behaviour of this block is a fault or a stuck state: every step is
total" (93_implementation_defined.md section 1; R8; 20_memory.md R39). Nobody raises one, which is safe. -/
inductive Fault where
  deriving DecidableEq, Repr

/-- The reasons an operation can be refused. -/
inductive Refusal where
  /-- `exec`, for an operation without a meaning; no arm answers it. Safe: the machine stops where the hardware goes on. -/
  | notModelled (mnemonic : String)
  /-- The meaning of `RESERVED.SEL1F`, for which the spec defines no behaviour (30_encoding.md R60 (a), U1). Safe: no state of
  the block selects it, because the cursor never holds 15. -/
  | reservedSelector
  deriving DecidableEq, Repr

/-- The configuration of `State.reset`: the normative policy (D7), a timestamp width and a RAW_INIT of the model's own
(DESIGN CHOICE, log entries 2 and 3). -/
def resetConfig : Config where
  policy := .terminate
  tsWidth := 64
  rawInit := #v[0x00#8, 0x00#8, 0x00#8, 0x00#8, 0x00#8, 0x00#8, 0x00#8, 0x00#8, 0x00#8, 0x00#8, 0x00#8, 0x00#8, 0x00#8,
    0x00#8, 0x00#8]

/-- The machine right after `RESET(0)` (R22), with no input given yet. -/
def State.reset : State where
  raw := []
  cursor := 0
  acc := 0x00#8
  frameOk := true
  synced := false
  err := .none
  lastTs := 0
  config := resetConfig
  event := .none
  value := .none
  stimulus := []

end Sys2Proof.Machine
end

