-- ==== Sys2Proof/Machine/Ops.lean ====
section
/-! DEFINITION. The named operations over RawFrame and the registers of the block, completing a frame, and rejecting one (the
block's form of taking an exception, 60_exceptions.md R157). There is no return from a rejection (R158): the epilogue has
already put the block where the next frame starts. -/

namespace Sys2Proof.Machine

/-- `raw[a]` of a buffer (00_scope.md R8). -/
def Memory.read : Memory → Nat → Byte
  | [], _ => Memory.unlisted
  | (k, v) :: rest, a => if k = a then v else Memory.read rest a

/-- `raw[a] <- v` of a buffer (R8), in canonical form. -/
def Memory.write : Memory → Nat → Byte → Memory
  | [], a, v => if v = Memory.unlisted then [] else [(a, v)]
  | (k, w) :: rest, a, v =>
    if a < k then (if v = Memory.unlisted then (k, w) :: rest else (a, v) :: (k, w) :: rest)
    else if a = k then (if v = Memory.unlisted then rest else (a, v) :: rest)
    else (k, w) :: Memory.write rest a v

/-- The cells from offset `lo` up to, and without, `hi` rise strictly and hold no byte an unlisted offset would read. -/
def Memory.wfFrom (lo hi : Nat) : Memory → Bool
  | [] => true
  | (k, v) :: rest => decide (lo ≤ k) && decide (k < hi) && decide (v ≠ Memory.unlisted) && Memory.wfFrom (k + 1) hi rest

/-- The canonical form of RawFrame: fifteen offsets (R30). -/
def Memory.wf (m : Memory) : Bool := Memory.wfFrom 0 15 m

/-- A buffer whose first `n` offsets hold `v`. -/
def Memory.load (v : Nat → Byte) : Nat → Memory
  | 0 => []
  | n + 1 => (Memory.load v n).write n (v n)

/-- The buffer that holds the fifteen bytes of `f`. Irreducible, so that no comparison of two states unfolds fifteen writes;
`Memory.read_ofFrame` and `Memory.wf_ofFrame` say what it is. -/
@[irreducible] def Memory.ofFrame (f : RawFrame) : Memory := Memory.load (fun k => f.getD k Memory.unlisted) 15

/-- All fifteen bytes by value (R24, 43_field_extract.md R130). -/
def Memory.snapshot (m : Memory) : RawFrame :=
  #v[m.read 0, m.read 1, m.read 2, m.read 3, m.read 4, m.read 5, m.read 6, m.read 7, m.read 8, m.read 9, m.read 10,
    m.read 11, m.read 12, m.read 13, m.read 14]

/-- The XOR of the bytes at offsets 0 to `n - 1` (10_state.md R21 I3). -/
def Memory.xorBelow (m : Memory) : Nat → Byte
  | 0 => 0x00#8
  | n + 1 => m.xorBelow n ^^^ m.read n

/-- What an operation of the block gives: "State x Event" of 20_memory.md R40. -/
abbrev Result := Block × FrameEvent

/-- `raw[k]` (R8). -/
def Block.rawAt (s : Block) (k : Offset) : Byte := s.raw.read k.val

/-- `raw[k] <- b` (R8), sub-step 1 of R70. -/
def Block.store (s : Block) (k : Offset) (b : Byte) : Block := { s with raw := s.raw.write k.val b }

/-- The timestamp the `now` port carries: TS_WIDTH bits (44_timing.md R140). -/
def stamp (c : Config) (now : Nat) : Nat := now % 2 ^ c.tsWidth

/-- `emit None` (R8). -/
def Block.silent (s : Block) : Result := (s, .none)

/-- `acc <- 0x00` (41_checksum.md R101). -/
def Block.clearAcc (s : Block) : Block := { s with acc := 0x00#8 }

/-- `last_ts <- now` (44_timing.md R142). -/
def Block.updateTs (s : Block) (c : Config) (now : Nat) : Block := { s with lastTs := stamp c now }

/-- `(now - last) mod 2^w` (44_timing.md R141). -/
def intervalOf (w now last : Nat) : Nat := (now + (2 ^ w - last % 2 ^ w)) % 2 ^ w

/-- The interval at time `now` (R141), from the `last_ts` held at entry. -/
def Block.interval (s : Block) (c : Config) (now : Nat) : Nat := intervalOf c.tsWidth now s.lastTs

/-- The common epilogue (42_end_of_frame.md R116): `raw` and `synced` are not modified. -/
def Block.epilogue (s : Block) (c : Config) (now : Nat) : Block :=
  { (s.updateTs c now).clearAcc with cursor := 0, frameOk := true, err := .none }

/-- A rejection (60_exceptions.md R157): the snapshot by value, the epilogue, the event (R112 to R114). -/
def Block.reject (s : Block) (c : Config) (reason : Reason) (now : Nat) : Result :=
  (s.epilogue c now, .rejected ⟨reason, s.raw.snapshot⟩)

/-- RESET (70_reset_and_hazards.md R175): every element takes its value of 10_state.md R22. -/
def Block.reset (c : Config) (now : Nat) : Block where
  raw := Memory.ofFrame c.rawInit
  cursor := 0
  acc := 0x00#8
  frameOk := true
  synced := false
  err := .none
  lastTs := stamp c now

/-- The run after an operation of the block: its state taken over, its event put out. -/
def State.put (s : State) (r : Result) : State := { s with toBlock := r.1, event := r.2, value := .none }

/-- The run after a sub-operation that computes a value: it writes nothing and has no event of its own. -/
def State.report (s : State) (v : SubValue) : State := { s with event := .none, value := v }

end Sys2Proof.Machine
end

