-- ==== Sys2Proof/Machine/Operands.lean ====
section
/-! DEFINITION. The operand forms: a byte of RawFrame, a bit of a byte (43_field_extract.md R125), the fields and flags of a
`DecodedFrame` (R126, R127), and the bytes and times of a wire frame (30_encoding.md R64). -/

namespace Sys2Proof.Machine

/-- `bit(v, i)` is `(v >> i) & 1` (R125): `floor(v / 2^i) mod 2`. -/
def bitOf (v : Byte) (i : Nat) : Bool := (v >>> i) &&& 1#8 == 1#8

/-- The byte fields (R126). -/
def Block.byteFields (s : Block) : ByteFields where
  sequenceNumber := s.rawAt Config.posSeq
  entropyKey := s.rawAt Config.posEntropy
  powerSetting := s.rawAt Config.posPower
  configFlags := s.rawAt Config.posConfig
  brakingLevel := s.rawAt Config.posBrake

/-- The flag fields (R127), from byte 6 and not from byte 9 (R128). -/
def Block.flagFields (s : Block) : FlagFields where
  pedalAssist := bitOf (s.rawAt Config.posFlags) Config.bitPas
  cruiseControl := bitOf (s.rawAt Config.posFlags) Config.bitCruise
  softStart := bitOf (s.rawAt Config.posFlags) Config.bitSoft

/-- The `DecodedFrame` of `EOF.DECODE` at time `now` (R115). -/
def Block.decodedFrame (s : Block) (c : Config) (now : Nat) : DecodedFrame where
  sequenceNumber := s.byteFields.sequenceNumber
  entropyKey := s.byteFields.entropyKey
  powerSetting := s.byteFields.powerSetting
  configFlags := s.byteFields.configFlags
  brakingLevel := s.byteFields.brakingLevel
  pedalAssist := s.flagFields.pedalAssist
  cruiseControl := s.flagFields.cruiseControl
  softStart := s.flagFields.softStart
  interval := s.interval c now

/-- A frame accepted (42_end_of_frame.md R115): the fields and the interval are taken before the epilogue writes `last_ts`. -/
def Block.accept (s : Block) (c : Config) (now : Nat) : Result := (s.epilogue c now, .decoded (s.decodedFrame c now))

/-- Consecutive bytes with their times: byte number i (from 1) at `t0 + i * d` (30_encoding.md R64). -/
def timed (t0 d : Nat) : List Byte → List (Byte × Nat)
  | [] => []
  | b :: rest => (b, t0 + d) :: timed (t0 + d) d rest

/-- The inputs of a `feed` step. -/
def Stimulus.feed (b : Byte) (now : Nat) : Stimulus := ⟨false, true, b, now⟩

end Sys2Proof.Machine
end

