-- ==== Sys2Proof/Machine/Flags.lean ====
section
/-! DEFINITION. The flags `frame_ok`, `synced`, `err` and the accumulator: the check of a position (40_frame_sync.md R70 sub-step 2),
the accumulation (41_checksum.md R100), the checksum test (R102), the end-of-frame decision (42_end_of_frame.md R111) and its
selector word (30_encoding.md R58). -/

namespace Sys2Proof.Machine

/-- The numeric code of `err` (60_exceptions.md R150). -/
def PendingErr.code : PendingErr → BitVec 2
  | .none => 0#2
  | .prefixMismatch => 1#2
  | .unexpectedInitialSequence => 2#2

/-- The numeric code of a reason (60_exceptions.md R150). -/
def Reason.code : Reason → BitVec 2
  | .prefixMismatch => 1#2
  | .unexpectedInitialSequence => 2#2
  | .checksumMismatch => 3#2

/-- "mark frame invalid": `frame_ok <- 0; err <- e` (R72 to R74). -/
def Block.markInvalid (s : Block) (e : PendingErr) : Block := { s with frameOk := false, err := e }

/-- The check of position `k` (R70 sub-step 2); none is made on a frame already invalid (R89 (b)). -/
def Block.check (s : Block) (k : Offset) (b : Byte) : Block :=
  if s.frameOk then
    match k.val with
    | 0 => if b = Config.magic0 then s else s.markInvalid .prefixMismatch
    | 1 => if b = Config.magic1 then s else s.markInvalid .prefixMismatch
    | 2 =>
      if s.synced then s
      else if b = Config.initSeq then { s with synced := true }
      else s.markInvalid .unexpectedInitialSequence
    | _ => s
  else s

/-- `if frame_ok = 1 and k <= 13 then acc <- acc ^ b` (R100). -/
def Block.accumulate (s : Block) (k : Offset) (b : Byte) : Block :=
  if s.frameOk && decide (k ≤ Config.csumLast) then { s with acc := s.acc ^^^ b } else s

/-- `csum_ok := (acc != 0x00) and (acc == raw[14])` (R102). -/
def Block.csumOk (s : Block) : Bool := s.acc != 0x00#8 && s.acc == s.rawAt Config.csumPos

/-- `eof_sel[3:0] = { frame_ok, err[1:0], csum_ok }` (R58). -/
def Block.eofSel (s : Block) : BitVec 4 := BitVec.ofBool s.frameOk ++ s.err.code ++ BitVec.ofBool s.csumOk

/-- `EOF(now)`, the decision (R111), in the order of its pseudocode. -/
def Block.endOfFrame (s : Block) (c : Config) (now : Nat) : Result :=
  if s.frameOk = false ∧ s.err = .prefixMismatch then s.reject c .prefixMismatch now
  else if s.frameOk = false ∧ s.err = .unexpectedInitialSequence then s.reject c .unexpectedInitialSequence now
  else if s.csumOk = false then s.reject c .checksumMismatch now
  else s.accept c now

/-- A `feed` step entered at `k` ends the frame (42_end_of_frame.md R110, R89 (a)). -/
def Block.completes (s : Block) (c : Config) (k : Offset) : Bool :=
  decide (k = Config.csumPos) || (!s.frameOk && decide (c.policy = .terminate))

/-- Sub-step 4 of R70: end of frame, or the next position. -/
def Block.advance (s : Block) (c : Config) (k : Offset) (now : Nat) : Result :=
  if s.completes c k then s.endOfFrame c now else { s with cursor := k + 1 }.silent

/-- The four sub-steps of `feed(b, now)` at position `k` (R70): store, check, accumulate, advance. -/
def Block.feedAt (s : Block) (c : Config) (k : Offset) (b : Byte) (now : Nat) : Result :=
  (((s.store k b).check k b).accumulate k b).advance c k now

/-- `feed(b, now)` (R70): the position is the cursor at entry. -/
def Block.feed (s : Block) (c : Config) (b : Byte) (now : Nat) : Result := s.feedAt c s.cursor b now

/-- One step of the block as the spec has it (R8, 20_memory.md R40): from the block's state, the configuration and the inputs of this
step alone, the next state and the event. RESET has priority (70_reset_and_hazards.md R176). -/
def Block.step (s : Block) (c : Config) (x : Stimulus) : Result :=
  if x.rst then (Block.reset c x.now).silent
  else if x.inValid then s.feed c x.data x.now
  else s.silent

/-- A run after `feed(b, now)`. -/
def State.feed (s : State) (b : Byte) (now : Nat) : State := s.put (s.toBlock.feed s.config b now)

/-- Consecutive `feed` steps (30_encoding.md R64). -/
def State.feedAll (s : State) : List (Byte × Nat) → State
  | [] => s
  | (b, now) :: rest => (s.feed b now).feedAll rest

end Sys2Proof.Machine
end

