-- ==== Sys2Proof/Machine/Checksum.lean ====
section
/-! DEFINITION. The xor_checksum_accumulator sub-block (41_checksum.md R100 to R102). -/

namespace Sys2Proof.Machine

/-- `XACC.ACC` (R100), at the state's cursor. -/
def execXaccAcc (b : Byte) (s : State) : Host.Outcome State Fault Refusal := .next (s.put (s.accumulate s.cursor b).silent)

/-- `XACC.CLR` (R101). -/
def execXaccClr (s : State) : Host.Outcome State Fault Refusal := .next (s.put s.clearAcc.silent)

/-- `XACC.CHK` (R102): it writes nothing and computes `csum_ok`. -/
def execXaccChk (s : State) : Host.Outcome State Fault Refusal := .next (s.report (.csumOk s.csumOk))

end Sys2Proof.Machine
end

