-- ==== Sys2Proof/Machine/Control.lean ====
section
/-! DEFINITION. The steps without a byte: `RESET`, `IDLE`, and the reserved selector. -/

namespace Sys2Proof.Machine

/-- `RESET` (70_reset_and_hazards.md R175). -/
def execReset (now : Nat) (s : State) : Host.Outcome State Fault Refusal := .next (s.put (Block.reset s.config now).silent)

/-- `IDLE` (40_frame_sync.md R71): no element changes, no event. -/
def execIdle (s : State) : Host.Outcome State Fault Refusal := .next (s.put s.silent)

/-- `RESERVED.SEL1F` (30_encoding.md R60 (a)): "no defined behaviour here; the spec does not choose one". The state is taken
so that a repair could use it. -/
def execReservedSel1f (_s : State) : Host.Outcome State Fault Refusal := .refused .reservedSelector

end Sys2Proof.Machine
end

