-- ==== Sys2Proof/Machine/EndOfFrame.lean ====
section
/-! DEFINITION. The four outcomes of end-of-frame processing (42_end_of_frame.md R112 to R115) and their epilogue (R116), each as an
operation of its own. Which outcome a completing feed step takes is `State.endOfFrame` (R111). -/

namespace Sys2Proof.Machine

/-- `EOF.REJECT.PREFIX` (R112). -/
def execEofRejectPrefix (now : Nat) (s : State) : Host.Outcome State Fault Refusal := .next (s.put (s.reject s.config .prefixMismatch now))

/-- `EOF.REJECT.SEQ` (R113). -/
def execEofRejectSeq (now : Nat) (s : State) : Host.Outcome State Fault Refusal := .next (s.put (s.reject s.config .unexpectedInitialSequence now))

/-- `EOF.REJECT.CSUM` (R114). -/
def execEofRejectCsum (now : Nat) (s : State) : Host.Outcome State Fault Refusal := .next (s.put (s.reject s.config .checksumMismatch now))

/-- `EOF.DECODE` (R115). -/
def execEofDecode (now : Nat) (s : State) : Host.Outcome State Fault Refusal := .next (s.put (s.accept s.config now))

/-- `EOF.EPILOGUE` (R116): no event of its own. -/
def execEofEpilogue (now : Nat) (s : State) : Host.Outcome State Fault Refusal := .next (s.put (s.epilogue s.config now).silent)

end Sys2Proof.Machine
end

