-- ==== Sys2Proof/Machine/Extract.lean ====
section
/-! DEFINITION. The field_extractor_mux sub-block (43_field_extract.md R125 to R127): pure selections, which write nothing. -/

namespace Sys2Proof.Machine

/-- `BIT` (R125). -/
def execBit (v : Byte) (i : Nat) (s : State) : Host.Outcome State Fault Refusal := .next (s.report (.bit (bitOf v i)))

/-- `FIELDS` (R126). -/
def execFields (s : State) : Host.Outcome State Fault Refusal := .next (s.report (.fields s.byteFields))

/-- `FLAGS` (R127). -/
def execFlags (s : State) : Host.Outcome State Fault Refusal := .next (s.report (.flags s.flagFields))

end Sys2Proof.Machine
end

