-- ==== Sys2Proof/Machine/Feed.lean ====
section
/-! DEFINITION. The fifteen positions of the feed step (40_frame_sync.md R72 to R86), each the skeleton of R70 at its own offset. -/

namespace Sys2Proof.Machine

/-- `FEED.P0` (MAGIC0; R72). -/
def execFeedP0 (b : Byte) (now : Nat) (s : State) : Host.Outcome State Fault Refusal := .next (s.put (s.feedAt s.config 0 b now))

/-- `FEED.P1` (MAGIC1; R73). -/
def execFeedP1 (b : Byte) (now : Nat) (s : State) : Host.Outcome State Fault Refusal := .next (s.put (s.feedAt s.config 1 b now))

/-- `FEED.P2` (SEQ; R74). -/
def execFeedP2 (b : Byte) (now : Nat) (s : State) : Host.Outcome State Fault Refusal := .next (s.put (s.feedAt s.config 2 b now))

/-- `FEED.P3` (RSV; R75). -/
def execFeedP3 (b : Byte) (now : Nat) (s : State) : Host.Outcome State Fault Refusal := .next (s.put (s.feedAt s.config 3 b now))

/-- `FEED.P4` (RSV; R76). -/
def execFeedP4 (b : Byte) (now : Nat) (s : State) : Host.Outcome State Fault Refusal := .next (s.put (s.feedAt s.config 4 b now))

/-- `FEED.P5` (ENTROPY; R77). -/
def execFeedP5 (b : Byte) (now : Nat) (s : State) : Host.Outcome State Fault Refusal := .next (s.put (s.feedAt s.config 5 b now))

/-- `FEED.P6` (FLAGS; R78). -/
def execFeedP6 (b : Byte) (now : Nat) (s : State) : Host.Outcome State Fault Refusal := .next (s.put (s.feedAt s.config 6 b now))

/-- `FEED.P7` (POWER; R79). -/
def execFeedP7 (b : Byte) (now : Nat) (s : State) : Host.Outcome State Fault Refusal := .next (s.put (s.feedAt s.config 7 b now))

/-- `FEED.P8` (RSV; R80). -/
def execFeedP8 (b : Byte) (now : Nat) (s : State) : Host.Outcome State Fault Refusal := .next (s.put (s.feedAt s.config 8 b now))

/-- `FEED.P9` (CONFIG; R81). -/
def execFeedP9 (b : Byte) (now : Nat) (s : State) : Host.Outcome State Fault Refusal := .next (s.put (s.feedAt s.config 9 b now))

/-- `FEED.P10` (EABS; R82). -/
def execFeedP10 (b : Byte) (now : Nat) (s : State) : Host.Outcome State Fault Refusal := .next (s.put (s.feedAt s.config 10 b now))

/-- `FEED.P11` (RSV; R83). -/
def execFeedP11 (b : Byte) (now : Nat) (s : State) : Host.Outcome State Fault Refusal := .next (s.put (s.feedAt s.config 11 b now))

/-- `FEED.P12` (RSV; R84). -/
def execFeedP12 (b : Byte) (now : Nat) (s : State) : Host.Outcome State Fault Refusal := .next (s.put (s.feedAt s.config 12 b now))

/-- `FEED.P13` (RSV; R85). -/
def execFeedP13 (b : Byte) (now : Nat) (s : State) : Host.Outcome State Fault Refusal := .next (s.put (s.feedAt s.config 13 b now))

/-- `FEED.P14` (CSUM; R86). -/
def execFeedP14 (b : Byte) (now : Nat) (s : State) : Host.Outcome State Fault Refusal := .next (s.put (s.feedAt s.config 14 b now))

end Sys2Proof.Machine
end

