-- ==== Sys2Proof/Syntax.lean ====
section
/-! DEFINITION. The operations of spec/opcode_table.json, one constructor per row of the table (32 rows; spec/index.json
does not exist, so no row is an alias). The rows of format SEL6 are the steps of the block; the others are parts of a
step (30_encoding.md R57, R58, log entry 8). `b` is the input byte, `now` the timestamp input (R8). -/

namespace Sys2Proof

/-- The free bytes of the wire frame of 30_encoding.md R50: offsets 2 to 14. Offsets 0 and 1 are the magic prefix, which
the encoding fixes. Byte 14 is a free byte here, so that a corrupted checksum (`FRAME!x` of R64) is a frame too. -/
structure WireFrame where
  /-- Offset 2. -/
  seq     : Byte
  /-- Offset 3, reserved. -/
  r3      : Byte
  /-- Offset 4, reserved. -/
  r4      : Byte
  /-- Offset 5. -/
  entropy : Byte
  /-- Offset 6. -/
  flags   : Byte
  /-- Offset 7. -/
  power   : Byte
  /-- Offset 8, reserved. -/
  r8      : Byte
  /-- Offset 9. -/
  config  : Byte
  /-- Offset 10. -/
  braking : Byte
  /-- Offset 11, reserved. -/
  r11     : Byte
  /-- Offset 12, reserved. -/
  r12     : Byte
  /-- Offset 13, reserved. -/
  r13     : Byte
  /-- Offset 14, the transmitted checksum. -/
  csum    : Byte
  deriving DecidableEq, Repr

/-- One constructor per row of spec/opcode_table.json. -/
inductive Instr where
  /-- `RESET` (70_reset_and_hazards.md R175). -/
  | reset (now : Nat)
  /-- `IDLE` (40_frame_sync.md R71). -/
  | idle
  /-- `FEED.P0` (MAGIC0; 40_frame_sync.md R72). -/
  | feedP0 (b : Byte) (now : Nat)
  /-- `FEED.P1` (MAGIC1; 40_frame_sync.md R73). -/
  | feedP1 (b : Byte) (now : Nat)
  /-- `FEED.P2` (SEQ; 40_frame_sync.md R74). -/
  | feedP2 (b : Byte) (now : Nat)
  /-- `FEED.P3` (RSV; 40_frame_sync.md R75). -/
  | feedP3 (b : Byte) (now : Nat)
  /-- `FEED.P4` (RSV; 40_frame_sync.md R76). -/
  | feedP4 (b : Byte) (now : Nat)
  /-- `FEED.P5` (ENTROPY; 40_frame_sync.md R77). -/
  | feedP5 (b : Byte) (now : Nat)
  /-- `FEED.P6` (FLAGS; 40_frame_sync.md R78). -/
  | feedP6 (b : Byte) (now : Nat)
  /-- `FEED.P7` (POWER; 40_frame_sync.md R79). -/
  | feedP7 (b : Byte) (now : Nat)
  /-- `FEED.P8` (RSV; 40_frame_sync.md R80). -/
  | feedP8 (b : Byte) (now : Nat)
  /-- `FEED.P9` (CONFIG; 40_frame_sync.md R81). -/
  | feedP9 (b : Byte) (now : Nat)
  /-- `FEED.P10` (EABS; 40_frame_sync.md R82). -/
  | feedP10 (b : Byte) (now : Nat)
  /-- `FEED.P11` (RSV; 40_frame_sync.md R83). -/
  | feedP11 (b : Byte) (now : Nat)
  /-- `FEED.P12` (RSV; 40_frame_sync.md R84). -/
  | feedP12 (b : Byte) (now : Nat)
  /-- `FEED.P13` (RSV; 40_frame_sync.md R85). -/
  | feedP13 (b : Byte) (now : Nat)
  /-- `FEED.P14` (CSUM; 40_frame_sync.md R86). -/
  | feedP14 (b : Byte) (now : Nat)
  /-- `RESERVED.SEL1F`: a byte presented while the cursor holds 15 (30_encoding.md R60). -/
  | reservedSel1f
  /-- `EOF.REJECT.PREFIX` (42_end_of_frame.md R112). -/
  | eofRejectPrefix (now : Nat)
  /-- `EOF.REJECT.SEQ` (42_end_of_frame.md R113). -/
  | eofRejectSeq (now : Nat)
  /-- `EOF.REJECT.CSUM` (42_end_of_frame.md R114). -/
  | eofRejectCsum (now : Nat)
  /-- `EOF.DECODE` (42_end_of_frame.md R115). -/
  | eofDecode (now : Nat)
  /-- `XACC.ACC` (41_checksum.md R100); the entry cursor is the state's cursor. -/
  | xaccAcc (b : Byte)
  /-- `XACC.CLR` (41_checksum.md R101). -/
  | xaccClr
  /-- `XACC.CHK` (41_checksum.md R102). -/
  | xaccChk
  /-- `BIT` (43_field_extract.md R125). -/
  | bit (v : Byte) (i : Nat)
  /-- `FIELDS` (43_field_extract.md R126). -/
  | fields
  /-- `FLAGS` (43_field_extract.md R127). -/
  | flags
  /-- `TS.INTERVAL` (44_timing.md R141). -/
  | tsInterval (now : Nat)
  /-- `TS.UPDATE` (44_timing.md R142). -/
  | tsUpdate (now : Nat)
  /-- `EOF.EPILOGUE` (42_end_of_frame.md R116). -/
  | eofEpilogue (now : Nat)
  /-- `FRAME` (30_encoding.md R50, R64): the fifteen bytes of `f`, byte number i (from 1) fed at `t0 + i * d`. -/
  | frame (f : WireFrame) (t0 d : Nat)
  deriving DecidableEq, Repr

end Sys2Proof
end

