-- ==== Sys2Proof/WellFormed.lean ====
section
/-! DEFINITION. What an operand may be: a timestamp has TS_WIDTH bits (44_timing.md R140), a bit position of `BIT` is one of
0..7 (43_field_extract.md R125, decision D26). Every byte value is legal at every offset (30_encoding.md R60 (b)). -/

namespace Sys2Proof

/-- `t` is an unsigned number of `w` bits (R140). -/
abbrev FitsTimestamp (w t : Nat) : Prop := t < 2 ^ w

/-- The operands of `i` are ones the ports can carry, for timestamps of `w` bits. The last byte of a FRAME is fed at
`t0 + 15 * d` (R64). -/
def Instr.wellFormed (w : Nat) : Instr → Bool
  | .reset now => decide (FitsTimestamp w now)
  | .idle => true
  | .feedP0 _ now => decide (FitsTimestamp w now)
  | .feedP1 _ now => decide (FitsTimestamp w now)
  | .feedP2 _ now => decide (FitsTimestamp w now)
  | .feedP3 _ now => decide (FitsTimestamp w now)
  | .feedP4 _ now => decide (FitsTimestamp w now)
  | .feedP5 _ now => decide (FitsTimestamp w now)
  | .feedP6 _ now => decide (FitsTimestamp w now)
  | .feedP7 _ now => decide (FitsTimestamp w now)
  | .feedP8 _ now => decide (FitsTimestamp w now)
  | .feedP9 _ now => decide (FitsTimestamp w now)
  | .feedP10 _ now => decide (FitsTimestamp w now)
  | .feedP11 _ now => decide (FitsTimestamp w now)
  | .feedP12 _ now => decide (FitsTimestamp w now)
  | .feedP13 _ now => decide (FitsTimestamp w now)
  | .feedP14 _ now => decide (FitsTimestamp w now)
  | .reservedSel1f => true
  | .eofRejectPrefix now => decide (FitsTimestamp w now)
  | .eofRejectSeq now => decide (FitsTimestamp w now)
  | .eofRejectCsum now => decide (FitsTimestamp w now)
  | .eofDecode now => decide (FitsTimestamp w now)
  | .xaccAcc _ => true
  | .xaccClr => true
  | .xaccChk => true
  | .bit _ i => decide (i < 8)
  | .fields => true
  | .flags => true
  | .tsInterval now => decide (FitsTimestamp w now)
  | .tsUpdate now => decide (FitsTimestamp w now)
  | .eofEpilogue now => decide (FitsTimestamp w now)
  | .frame _ t0 d => decide (FitsTimestamp w (t0 + 15 * d))

end Sys2Proof
end

