-- ==== Sys2Proof/Decode.lean ====
section
/-! DEFINITION. How an operation is selected (30_encoding.md R57, R58, R50, R60 and spec/opcode_table.json), and the encoder
written from the same tables. The five formats of the table select independently: a SEL6 word and an EOFSEL4 word may be the
same number and mean different things, so an encoded operation carries its format (log entry 8). The operands of an
operation are not bits of its selector word (R57: "The value of the input byte does not select the operation; it is an
operand"); they stand beside it. -/

namespace Sys2Proof

/-- The format column of spec/opcode_table.json. -/
inductive Format where
  | sel6
  | eofSel4
  | sel6Sub
  | eofSel4Sub
  | wire15
  deriving DecidableEq, Repr

/-- The rows of format SEL6.SUB and EOFSEL4.SUB. A sub-operation has "no selector of [its] own" (R58): its row is named,
and its match and mask say under which selector words it is active. -/
inductive SubRow where
  | xaccClr
  | xaccChk
  | bit
  | fields
  | flags
  | tsInterval
  | tsUpdate
  | eofEpilogue
  deriving DecidableEq, Repr

/-- An encoded operation: its format, the word of that format, and the operand ports beside it. -/
inductive Code where
  /-- `sel[5:0] = { rst, in_valid, cursor[3:0] }` (R57), with `in_data` and `now`. -/
  | sel6 (sel : BitVec 6) (b : Byte) (now : Nat)
  /-- `eof_sel[3:0] = { frame_ok, err[1:0], csum_ok }` (R58), with `now`. -/
  | eofSel4 (sel : BitVec 4) (now : Nat)
  /-- The one SEL6.SUB row, `XACC.ACC`, with the input byte. -/
  | sel6Sub (sel : BitVec 6) (b : Byte)
  /-- An EOFSEL4.SUB row, with the operands `v` and `i` of `BIT` and the timestamp. -/
  | eofSel4Sub (row : SubRow) (sel : BitVec 4) (v : Byte) (i : Nat) (now : Nat)
  /-- The bytes of a wire frame in the order of arrival (R50), with the times of R64. -/
  | wire15 (bytes : List Byte) (t0 d : Nat)
  deriving DecidableEq, Repr

/-- Why a word selects nothing. -/
inductive DecodeError where
  /-- One of the patterns `000x`, `011x`, `101x`, `110x`, `111x` (R58, U10). -/
  | unreachableEofSel (sel : BitVec 4)
  /-- The sub-operation is not active under this SEL6 word. -/
  | inactiveUnderSel (sel : BitVec 6)
  /-- The sub-operation is not active under this EOFSEL4 word. -/
  | inactiveUnderEofSel (row : SubRow) (sel : BitVec 4)
  /-- `BIT` has the positions 0..7 (R125, D26). -/
  | bitPosition (i : Nat)
  /-- A frame has exactly fifteen bytes (R50, R61). -/
  | frameLength (n : Nat)
  /-- Byte 0 of the layout is 0x01 (R50, R51). -/
  | frameMagic0 (b : Byte)
  /-- Byte 1 of the layout is 0x03 (R50, R51). -/
  | frameMagic1 (b : Byte)
  deriving DecidableEq, Repr

/-- The selector word of a step (R57). -/
def selector (rst inValid : Bool) (cursor : Offset) : BitVec 6 :=
  BitVec.ofBool rst ++ BitVec.ofBool inValid ++ BitVec.ofNat 4 cursor.val

/-- The SEL6 table of R57: total, every word of six bits selects one row. -/
def decodeSel6 (sel : BitVec 6) (b : Byte) (now : Nat) : Instr :=
  if sel.getLsbD 5 then .reset now
  else if !sel.getLsbD 4 then .idle
  else
    match (sel.extractLsb' 0 4).toNat with
    | 0 => .feedP0 b now
    | 1 => .feedP1 b now
    | 2 => .feedP2 b now
    | 3 => .feedP3 b now
    | 4 => .feedP4 b now
    | 5 => .feedP5 b now
    | 6 => .feedP6 b now
    | 7 => .feedP7 b now
    | 8 => .feedP8 b now
    | 9 => .feedP9 b now
    | 10 => .feedP10 b now
    | 11 => .feedP11 b now
    | 12 => .feedP12 b now
    | 13 => .feedP13 b now
    | 14 => .feedP14 b now
    | _ => .reservedSel1f

/-- The EOFSEL4 table of R58; the unreachable patterns are rejected (U10). -/
def decodeEofSel4 (sel : BitVec 4) (now : Nat) : Except DecodeError Instr :=
  match sel.toNat with
  | 2 | 3 => .ok (.eofRejectPrefix now)
  | 4 | 5 => .ok (.eofRejectSeq now)
  | 8 => .ok (.eofRejectCsum now)
  | 9 => .ok (.eofDecode now)
  | _ => .error (.unreachableEofSel sel)

/-- The EOFSEL4.SUB rows: `XACC.CLR`, `TS.UPDATE` and `EOF.EPILOGUE` are active under every word, `XACC.CHK` under `1xxx`,
the selections of `EOF.DECODE` under `1001`. -/
def decodeEofSel4Sub (row : SubRow) (sel : BitVec 4) (v : Byte) (i now : Nat) : Except DecodeError Instr :=
  match row with
  | .xaccClr => .ok .xaccClr
  | .tsUpdate => .ok (.tsUpdate now)
  | .eofEpilogue => .ok (.eofEpilogue now)
  | .xaccChk => if sel.getLsbD 3 then .ok .xaccChk else .error (.inactiveUnderEofSel row sel)
  | .bit =>
    if sel ≠ 0x9#4 then .error (.inactiveUnderEofSel row sel)
    else if i < 8 then .ok (.bit v i)
    else .error (.bitPosition i)
  | .fields => if sel = 0x9#4 then .ok .fields else .error (.inactiveUnderEofSel row sel)
  | .flags => if sel = 0x9#4 then .ok .flags else .error (.inactiveUnderEofSel row sel)
  | .tsInterval => if sel = 0x9#4 then .ok (.tsInterval now) else .error (.inactiveUnderEofSel row sel)

/-- The WIRE15 layout of R50: fifteen bytes, the first two fixed. -/
def decodeWire15 (bytes : List Byte) (t0 d : Nat) : Except DecodeError Instr :=
  match bytes with
  | [m0, m1, seq, r3, r4, entropy, flags, power, r8, config, braking, r11, r12, r13, csum] =>
    if m0 ≠ Config.magic0 then .error (.frameMagic0 m0)
    else if m1 ≠ Config.magic1 then .error (.frameMagic1 m1)
    else .ok (.frame ⟨seq, r3, r4, entropy, flags, power, r8, config, braking, r11, r12, r13, csum⟩ t0 d)
  | _ => .error (.frameLength bytes.length)

/-- Every encoded operation, or the name of what is wrong with it. -/
def decode : Code → Except DecodeError Instr
  | .sel6 sel b now => .ok (decodeSel6 sel b now)
  | .eofSel4 sel now => decodeEofSel4 sel now
  | .sel6Sub sel b => if sel &&& 0x30#6 = 0x10#6 then .ok (.xaccAcc b) else .error (.inactiveUnderSel sel)
  | .eofSel4Sub row sel v i now => decodeEofSel4Sub row sel v i now
  | .wire15 bytes t0 d => decodeWire15 bytes t0 d

/-- The fifteen bytes of a frame in the order of arrival (R50, R32). -/
def WireFrame.bytes (f : WireFrame) : List Byte :=
  [Config.magic0, Config.magic1, f.seq, f.r3, f.r4, f.entropy, f.flags, f.power, f.r8, f.config, f.braking,
    f.r11, f.r12, f.r13, f.csum]

/-- The operand ports of a word that has none. -/
def subCode (row : SubRow) (sel : BitVec 4) : Code := .eofSel4Sub row sel 0#8 0 0

/-- The encoding of an operation: the table's match word (its don't-care bits 0) with the operands beside it. -/
def encode : Instr → Code
  | .reset now => .sel6 0b100000#6 0#8 now
  | .idle => .sel6 0b000000#6 0#8 0
  | .feedP0 b now => .sel6 0b010000#6 b now
  | .feedP1 b now => .sel6 0b010001#6 b now
  | .feedP2 b now => .sel6 0b010010#6 b now
  | .feedP3 b now => .sel6 0b010011#6 b now
  | .feedP4 b now => .sel6 0b010100#6 b now
  | .feedP5 b now => .sel6 0b010101#6 b now
  | .feedP6 b now => .sel6 0b010110#6 b now
  | .feedP7 b now => .sel6 0b010111#6 b now
  | .feedP8 b now => .sel6 0b011000#6 b now
  | .feedP9 b now => .sel6 0b011001#6 b now
  | .feedP10 b now => .sel6 0b011010#6 b now
  | .feedP11 b now => .sel6 0b011011#6 b now
  | .feedP12 b now => .sel6 0b011100#6 b now
  | .feedP13 b now => .sel6 0b011101#6 b now
  | .feedP14 b now => .sel6 0b011110#6 b now
  | .reservedSel1f => .sel6 0b011111#6 0#8 0
  | .eofRejectPrefix now => .eofSel4 0b0010#4 now
  | .eofRejectSeq now => .eofSel4 0b0100#4 now
  | .eofRejectCsum now => .eofSel4 0b1000#4 now
  | .eofDecode now => .eofSel4 0b1001#4 now
  | .xaccAcc b => .sel6Sub 0b010000#6 b
  | .xaccClr => subCode .xaccClr 0b0000#4
  | .xaccChk => subCode .xaccChk 0b1000#4
  | .bit v i => .eofSel4Sub .bit 0b1001#4 v i 0
  | .fields => subCode .fields 0b1001#4
  | .flags => subCode .flags 0b1001#4
  | .tsInterval now => .eofSel4Sub .tsInterval 0b1001#4 0#8 0 now
  | .tsUpdate now => .eofSel4Sub .tsUpdate 0b0000#4 0#8 0 now
  | .eofEpilogue now => .eofSel4Sub .eofEpilogue 0b0000#4 0#8 0 now
  | .frame f t0 d => .wire15 f.bytes t0 d

/-- A wire frame as one 120-bit number, byte 0 in the most significant position (the note of the table's FRAME row). -/
def wireWord (bytes : List Byte) : Nat := bytes.foldl (fun n b => n * 256 + b.toNat) 0

/-- The fifteen bytes of a 120-bit number, byte 0 the most significant. -/
def wireBytes (w : Nat) : List Byte :=
  [14, 13, 12, 11, 10, 9, 8, 7, 6, 5, 4, 3, 2, 1, 0].map fun k => BitVec.ofNat 8 (w >>> (8 * k))

/-- The format of an encoded operation. -/
def Code.format : Code → Format
  | .sel6 _ _ _ => .sel6
  | .eofSel4 _ _ => .eofSel4
  | .sel6Sub _ _ => .sel6Sub
  | .eofSel4Sub _ _ _ _ _ => .eofSel4Sub
  | .wire15 _ _ _ => .wire15

/-- The word of an encoded operation, the number the table's match and mask are about. -/
def Code.word : Code → Nat
  | .sel6 sel _ _ => sel.toNat
  | .eofSel4 sel _ => sel.toNat
  | .sel6Sub sel _ => sel.toNat
  | .eofSel4Sub _ sel _ _ _ => sel.toNat
  | .wire15 bytes _ _ => wireWord bytes

/-- The format, mask and match of a row of spec/opcode_table.json. -/
structure TableRow where
  /-- The row's format. -/
  format : Format
  /-- The row's mask. -/
  mask   : Nat
  /-- The row's match. -/
  value  : Nat
  deriving DecidableEq, Repr

/-- The word of `c` belongs to the row. -/
abbrev Code.inRow (c : Code) (r : TableRow) : Prop := c.format = r.format ∧ c.word &&& r.mask = r.value

/-- The table's row of an operation, its numbers copied from spec/opcode_table.json. -/
def Instr.row : Instr → TableRow
  | .reset _ => ⟨.sel6, 0x20, 0x20⟩
  | .idle => ⟨.sel6, 0x30, 0x00⟩
  | .feedP0 _ _ => ⟨.sel6, 0x3F, 0x10⟩
  | .feedP1 _ _ => ⟨.sel6, 0x3F, 0x11⟩
  | .feedP2 _ _ => ⟨.sel6, 0x3F, 0x12⟩
  | .feedP3 _ _ => ⟨.sel6, 0x3F, 0x13⟩
  | .feedP4 _ _ => ⟨.sel6, 0x3F, 0x14⟩
  | .feedP5 _ _ => ⟨.sel6, 0x3F, 0x15⟩
  | .feedP6 _ _ => ⟨.sel6, 0x3F, 0x16⟩
  | .feedP7 _ _ => ⟨.sel6, 0x3F, 0x17⟩
  | .feedP8 _ _ => ⟨.sel6, 0x3F, 0x18⟩
  | .feedP9 _ _ => ⟨.sel6, 0x3F, 0x19⟩
  | .feedP10 _ _ => ⟨.sel6, 0x3F, 0x1A⟩
  | .feedP11 _ _ => ⟨.sel6, 0x3F, 0x1B⟩
  | .feedP12 _ _ => ⟨.sel6, 0x3F, 0x1C⟩
  | .feedP13 _ _ => ⟨.sel6, 0x3F, 0x1D⟩
  | .feedP14 _ _ => ⟨.sel6, 0x3F, 0x1E⟩
  | .reservedSel1f => ⟨.sel6, 0x3F, 0x1F⟩
  | .eofRejectPrefix _ => ⟨.eofSel4, 0xE, 0x2⟩
  | .eofRejectSeq _ => ⟨.eofSel4, 0xE, 0x4⟩
  | .eofRejectCsum _ => ⟨.eofSel4, 0xF, 0x8⟩
  | .eofDecode _ => ⟨.eofSel4, 0xF, 0x9⟩
  | .xaccAcc _ => ⟨.sel6Sub, 0x30, 0x10⟩
  | .xaccClr => ⟨.eofSel4Sub, 0x0, 0x0⟩
  | .xaccChk => ⟨.eofSel4Sub, 0x8, 0x8⟩
  | .bit _ _ => ⟨.eofSel4Sub, 0xF, 0x9⟩
  | .fields => ⟨.eofSel4Sub, 0xF, 0x9⟩
  | .flags => ⟨.eofSel4Sub, 0xF, 0x9⟩
  | .tsInterval _ => ⟨.eofSel4Sub, 0xF, 0x9⟩
  | .tsUpdate _ => ⟨.eofSel4Sub, 0x0, 0x0⟩
  | .eofEpilogue _ => ⟨.eofSel4Sub, 0x0, 0x0⟩
  | .frame _ _ _ => ⟨.wire15, 0xFFFF00000000000000000000000000, 0x010300000000000000000000000000⟩

/-- The instruction a word selects, or none where the decoder rejects it. -/
def decoded? (c : Code) : Option Instr :=
  match decode c with
  | .ok i => some i
  | .error _ => none

/-- The instruction the decoder reads from a word of `nbits` bits, its operand ports 0. A word of six bits (one whole byte)
is a SEL6 word, the only words that select a step; four bits are an EOFSEL4 word and 120 bits a wire frame with byte 0 most
significant, as the table numbers it (log entries 8, 15). -/
def decodeTableWord (nbits w : Nat) : Option Instr :=
  match nbits with
  | 6 => if w < 64 then decoded? (.sel6 (BitVec.ofNat 6 w) 0#8 0) else none
  | 8 => if w < 64 then decoded? (.sel6 (BitVec.ofNat 6 w) 0#8 0) else none
  | 4 => if w < 16 then decoded? (.eofSel4 (BitVec.ofNat 4 w) 0) else none
  | 120 => if w < 2 ^ 120 then decoded? (.wire15 (wireBytes w) 0 0) else none
  | _ => none

end Sys2Proof
end

