-- ==== Sys2Proof/Machine/Frame.lean ====
section
/-! DEFINITION. `FRAME`: the fifteen `feed` steps a wire frame stands for (30_encoding.md R50, R64; log entry 14). -/

namespace Sys2Proof.Machine

/-- `FRAME` (R50, R64): each byte by the rule of the position the cursor stands at (20_memory.md R34). -/
def execFrame (f : WireFrame) (t0 d : Nat) (s : State) : Host.Outcome State Fault Refusal := .next (s.feedAll (timed t0 d f.bytes))

end Sys2Proof.Machine
end

