-- ==== Sys2Proof/Machine/Timing.lean ====
section
/-! DEFINITION. The timing tracker (44_timing.md R141, R142). -/

namespace Sys2Proof.Machine

/-- `TS.INTERVAL` (R141): it writes nothing. -/
def execTsInterval (now : Nat) (s : State) : Host.Outcome State Fault Refusal := .next (s.report (.interval (s.interval s.config now)))

/-- `TS.UPDATE` (R142). -/
def execTsUpdate (now : Nat) (s : State) : Host.Outcome State Fault Refusal := .next (s.put (s.updateTs s.config now).silent)

end Sys2Proof.Machine
end

