-- ==== Sys2Proof/Machine/Dispatch.lean ====
section
/-! DEFINITION. One arm per operation of spec/opcode_table.json. -/

namespace Sys2Proof.Machine

/-- The effect of one operation. -/
def exec (i : Instr) (s : State) : Host.Outcome State Fault Refusal :=
  match i with
  | .reset now => Sys2Proof.Machine.execReset now s
  | .idle => Sys2Proof.Machine.execIdle s
  | .feedP0 b now => Sys2Proof.Machine.execFeedP0 b now s
  | .feedP1 b now => Sys2Proof.Machine.execFeedP1 b now s
  | .feedP2 b now => Sys2Proof.Machine.execFeedP2 b now s
  | .feedP3 b now => Sys2Proof.Machine.execFeedP3 b now s
  | .feedP4 b now => Sys2Proof.Machine.execFeedP4 b now s
  | .feedP5 b now => Sys2Proof.Machine.execFeedP5 b now s
  | .feedP6 b now => Sys2Proof.Machine.execFeedP6 b now s
  | .feedP7 b now => Sys2Proof.Machine.execFeedP7 b now s
  | .feedP8 b now => Sys2Proof.Machine.execFeedP8 b now s
  | .feedP9 b now => Sys2Proof.Machine.execFeedP9 b now s
  | .feedP10 b now => Sys2Proof.Machine.execFeedP10 b now s
  | .feedP11 b now => Sys2Proof.Machine.execFeedP11 b now s
  | .feedP12 b now => Sys2Proof.Machine.execFeedP12 b now s
  | .feedP13 b now => Sys2Proof.Machine.execFeedP13 b now s
  | .feedP14 b now => Sys2Proof.Machine.execFeedP14 b now s
  | .reservedSel1f => Sys2Proof.Machine.execReservedSel1f s
  | .eofRejectPrefix now => Sys2Proof.Machine.execEofRejectPrefix now s
  | .eofRejectSeq now => Sys2Proof.Machine.execEofRejectSeq now s
  | .eofRejectCsum now => Sys2Proof.Machine.execEofRejectCsum now s
  | .eofDecode now => Sys2Proof.Machine.execEofDecode now s
  | .xaccAcc b => Sys2Proof.Machine.execXaccAcc b s
  | .xaccClr => Sys2Proof.Machine.execXaccClr s
  | .xaccChk => Sys2Proof.Machine.execXaccChk s
  | .bit v k => Sys2Proof.Machine.execBit v k s
  | .fields => Sys2Proof.Machine.execFields s
  | .flags => Sys2Proof.Machine.execFlags s
  | .tsInterval now => Sys2Proof.Machine.execTsInterval now s
  | .tsUpdate now => Sys2Proof.Machine.execTsUpdate now s
  | .eofEpilogue now => Sys2Proof.Machine.execEofEpilogue now s
  | .frame f t0 d => Sys2Proof.Machine.execFrame f t0 d s

end Sys2Proof.Machine
end

