-- ==== Sys2Proof/Machine/Fetch.lean ====
section
/-! DEFINITION. Which operation the next step performs (30_encoding.md R57): the selector word of the next input and the cursor.
Also how an encoded operation is placed so that it is the next one. -/

namespace Sys2Proof.Machine

/-- The inputs of a step without a byte. -/
def Stimulus.idle : Stimulus := ⟨false, false, 0x00#8, 0⟩

/-- The inputs of the next step; when none are left there is no byte (40_frame_sync.md R71, 70_reset_and_hazards.md R179). -/
def State.nextInput (s : State) : Stimulus := s.stimulus.headD Stimulus.idle

/-- The encoded operation of the next step (R57). -/
def State.nextCode (s : State) : Code :=
  .sel6 (selector s.nextInput.rst s.nextInput.inValid s.cursor) s.nextInput.data s.nextInput.now

/-- The operation of the next step. -/
def State.nextInstr (s : State) : Instr :=
  decodeSel6 (selector s.nextInput.rst s.nextInput.inValid s.cursor) s.nextInput.data s.nextInput.now

/-- The next inputs are taken. -/
def State.takeInput (s : State) : State := { s with stimulus := s.stimulus.tail }

/-- The value 0..14 of four cursor bits, or the cursor as it is for 15, which no cursor holds (R12, log entry 13). -/
def cursorFromBits (old : Offset) (bits : Nat) : Offset := if h : bits < 15 then ⟨bits, h⟩ else old

/-- Places a SEL6 word: its `rst` and `in_valid` are the next inputs, its cursor bits the cursor. -/
def State.placeSel6 (s : State) (w : Nat) : State :=
  { s with
    cursor := cursorFromBits s.cursor (w % 16)
    stimulus := ⟨w.testBit 5, w.testBit 4, 0x00#8, 0⟩ :: s.stimulus }

/-- The `err` whose code is `c` (R150). -/
def errFromCode (c : Nat) : PendingErr :=
  if c = 1 then .prefixMismatch else if c = 2 then .unexpectedInitialSequence else .none

/-- Places an EOFSEL4 word: the next step is a `FEED.P14` whose end-of-frame processing finds that word (R58). -/
def State.placeEofSel4 (s : State) (w : Nat) : State :=
  { s with
    cursor := Config.csumPos
    frameOk := w.testBit 3
    err := errFromCode (w / 2 % 4)
    acc := if w.testBit 0 then 0x01#8 else 0x00#8
    stimulus := Stimulus.feed 0x01#8 0 :: s.stimulus }

/-- Places a wire frame: its fifteen bytes are the next fifteen inputs (R64). -/
def State.placeWire15 (s : State) (w : Nat) : State :=
  { s with stimulus := (wireBytes w).map (Stimulus.feed · 0) ++ s.stimulus }

/-- Places the word of `nbits` bits that `decodeTableWord` reads (log entry 5). -/
def State.placeWord (s : State) (nbits w : Nat) : State :=
  match nbits with
  | 6 => s.placeSel6 w
  | 8 => s.placeSel6 w
  | 4 => s.placeEofSel4 w
  | 120 => s.placeWire15 w
  | _ => s

end Sys2Proof.Machine
end

