-- ==== Sys2Proof/Machine/Step.lean ====
section
/-! DEFINITION. One step of the block: `feed(b, now)`, `IDLE` or `RESET(now)` (00_scope.md R8, decision D1). -/

namespace Sys2Proof.Machine

/-- The next input is taken and the operation it selects is performed. -/
def step (s : State) : Host.Outcome State Fault Refusal := exec s.nextInstr s.takeInput

/-- `s` with the word placed so that the next step performs it. -/
def State.withFetchWord (s : State) (nbits w : Nat) : State := s.placeWord nbits w

end Sys2Proof.Machine
end

