-- ==== Sys2Proof/Machine/Ports.lean ====
section
/-! DEFINITION. The output ports of 10_state.md R23 as views of the state after a step. A field port outside a `Decoded` step may
hold any value and a claim must not read it (43_field_extract.md R129, D15): the view answers no value then. -/

namespace Sys2Proof.Machine

/-- `evt_kind` (30_encoding.md R63). -/
def State.evtKind (s : State) : BitVec 2 :=
  match s.event with
  | .none => 0#2
  | .decoded _ => 1#2
  | .rejected _ => 2#2

/-- `evt_reason` (R63, 60_exceptions.md R150). -/
def State.evtReason (s : State) : BitVec 2 :=
  match s.event with
  | .rejected e => e.reason.code
  | _ => 0#2

/-- The `DecodedFrame` on the field ports. -/
def State.fieldPorts (s : State) : Option DecodedFrame :=
  match s.event with
  | .decoded d => some d
  | _ => .none

/-- `seq`. -/
def State.seqPort (s : State) : Option Byte := s.fieldPorts.map (·.sequenceNumber)

/-- `entropy`. -/
def State.entropyPort (s : State) : Option Byte := s.fieldPorts.map (·.entropyKey)

/-- `power`. -/
def State.powerPort (s : State) : Option Byte := s.fieldPorts.map (·.powerSetting)

/-- `config`. -/
def State.configPort (s : State) : Option Byte := s.fieldPorts.map (·.configFlags)

/-- `braking`. -/
def State.brakingPort (s : State) : Option Byte := s.fieldPorts.map (·.brakingLevel)

/-- `pas`. -/
def State.pasPort (s : State) : Option Bool := s.fieldPorts.map (·.pedalAssist)

/-- `cruise`. -/
def State.cruisePort (s : State) : Option Bool := s.fieldPorts.map (·.cruiseControl)

/-- `soft`. -/
def State.softPort (s : State) : Option Bool := s.fieldPorts.map (·.softStart)

/-- `interval`. -/
def State.intervalPort (s : State) : Option Nat := s.fieldPorts.map (·.interval)

/-- `raw_out`: `raw_out[8k+7:8k] = raw[k]`. -/
def State.rawOut (s : State) : BitVec 120 :=
  s.rawAt 14 ++ s.rawAt 13 ++ s.rawAt 12 ++ s.rawAt 11 ++ s.rawAt 10 ++ s.rawAt 9 ++ s.rawAt 8 ++ s.rawAt 7 ++ s.rawAt 6
    ++ s.rawAt 5 ++ s.rawAt 4 ++ s.rawAt 3 ++ s.rawAt 2 ++ s.rawAt 1 ++ s.rawAt 0

/-- `synced_out`. -/
def State.syncedOut (s : State) : BitVec 1 := BitVec.ofBool s.synced

/-- `cursor_out`. -/
def State.cursorOut (s : State) : BitVec 4 := BitVec.ofNat 4 s.cursor.val

end Sys2Proof.Machine
end

