-- ==== Sys2Proof/Safety.lean ====
section
/-! DEFINITION. What statements about the machine are said in: the invariant of 10_state.md R21, the positions of a feed step,
the failing bytes, a frame's start, and the two views under which time and stale bytes are forgotten. -/

namespace Sys2Proof.Machine

/-- The invariants I1 to I5 of 10_state.md R21 (I1 is the type of `cursor`), the canonical form of `raw`, and the range of `last_ts`.
I6 is about steps, not about a state. -/
structure State.Inv (s : State) : Prop where
  /-- `raw` is in canonical form. -/
  rawWf : s.raw.wf = true
  /-- `last_ts` is a number of TS_WIDTH bits (R17). -/
  lastTsFits : s.lastTs < 2 ^ s.config.tsWidth
  /-- I2. -/
  errIff : s.err = .none ↔ s.frameOk = true
  /-- I3. -/
  accIsXor : s.frameOk = true → s.acc = s.raw.xorBelow s.cursor.val
  /-- I4, byte 0. -/
  magic0 : s.frameOk = true → 1 ≤ s.cursor.val → s.rawAt 0 = 0x01#8
  /-- I4, byte 1. -/
  magic1 : s.frameOk = true → 2 ≤ s.cursor.val → s.rawAt 1 = 0x03#8
  /-- I4, the synchronized flag. -/
  syncedInside : s.frameOk = true → 3 ≤ s.cursor.val → s.synced = true
  /-- I5. -/
  terminateOk : s.config.policy = .terminate → s.frameOk = true
  /-- A frame that has not begun is not invalid. -/
  freshOk : s.cursor.val = 0 → s.frameOk = true
  /-- The sequence error is pending only in AwaitingFirstFrame (60_exceptions.md R152). -/
  seqErrUnsynced : s.err = .unexpectedInitialSequence → s.synced = false

/-- The block stands where a frame starts (30_encoding.md R62): `cursor = 0`, `frame_ok = 1`, `acc = 0`. -/
structure State.AtFrameStart (s : State) : Prop where
  /-- `cursor = 0`. -/
  cursor : s.cursor.val = 0
  /-- `frame_ok = 1`. -/
  frameOk : s.frameOk = true
  /-- `acc = 0`. -/
  acc : s.acc = 0x00#8

/-- The operation of position `k`: `FEED.P0` to `FEED.P14`. -/
def feedInstr (k : Offset) (b : Byte) (now : Nat) : Instr :=
  match k.val with
  | 0 => .feedP0 b now
  | 1 => .feedP1 b now
  | 2 => .feedP2 b now
  | 3 => .feedP3 b now
  | 4 => .feedP4 b now
  | 5 => .feedP5 b now
  | 6 => .feedP6 b now
  | 7 => .feedP7 b now
  | 8 => .feedP8 b now
  | 9 => .feedP9 b now
  | 10 => .feedP10 b now
  | 11 => .feedP11 b now
  | 12 => .feedP12 b now
  | 13 => .feedP13 b now
  | _ => .feedP14 b now

/-- The byte `b` fails the check of the state's position (60_exceptions.md R150, codes 1 and 2). -/
def State.FailsCheck (s : State) (b : Byte) : Prop :=
  (s.cursor.val = 0 ∧ b ≠ 0x01#8) ∨ (s.cursor.val = 1 ∧ b ≠ 0x03#8) ∨
    (s.cursor.val = 2 ∧ s.synced = false ∧ b ≠ 0x02#8)

/-- An event without its interval (44_timing.md R145). -/
def FrameEvent.forgetTime : FrameEvent → FrameEvent
  | .decoded d => .decoded { d with interval := 0 }
  | ev => ev

/-- Everything but time: `last_ts`, the interval of the event, TS_WIDTH and the `now` of the inputs are blanked (R145). -/
def State.forgetTime (s : State) : State :=
  { s with
    lastTs := 0
    config := { s.config with tsWidth := 0 }
    event := s.event.forgetTime
    stimulus := s.stimulus.map fun x => { x with now := 0 } }

/-- An event without its raw snapshot: kind, reason and decoded fields (43_field_extract.md R132). -/
def FrameEvent.forgetRaw : FrameEvent → FrameEvent
  | .rejected e => .rejected { e with raw := #v[0#8, 0#8, 0#8, 0#8, 0#8, 0#8, 0#8, 0#8, 0#8, 0#8, 0#8, 0#8, 0#8, 0#8, 0#8] }
  | ev => ev

/-- The states agree but for stale bytes (20_memory.md R38): on every element other than `raw`, on the policy and the
timestamp width, on the inputs, and on the bytes of the frame in progress. RAW_INIT may differ. -/
structure SameButStale (s t : State) : Prop where
  /-- Same position. -/
  cursor : s.cursor = t.cursor
  /-- Same accumulator. -/
  acc : s.acc = t.acc
  /-- Same validity. -/
  frameOk : s.frameOk = t.frameOk
  /-- Same DecoderState. -/
  synced : s.synced = t.synced
  /-- Same pending reason. -/
  err : s.err = t.err
  /-- Same timestamp. -/
  lastTs : s.lastTs = t.lastTs
  /-- Same INVALID_POLICY. -/
  policy : s.config.policy = t.config.policy
  /-- Same TS_WIDTH. -/
  tsWidth : s.config.tsWidth = t.config.tsWidth
  /-- Same inputs to come. -/
  stimulus : s.stimulus = t.stimulus
  /-- Same bytes of the frame in progress. -/
  current : ∀ k : Offset, k.val < s.cursor.val → s.rawAt k = t.rawAt k

end Sys2Proof.Machine
end

