-- ==== Sys2Proof/Certificates/Slice0/Obligations.lean ====
section
/-! DEFINITION. The statements of the row. Each docstring names the rule of spec/ it formalises, or the rule it rests on and
what in it is the spec's own decision (D<n>) or the model's own choice (log entry <n>). -/

open Sys2Proof Sys2Proof.Machine

-- ==== Selection, decoding, encoding ====

/-- A step performs the operation its selector word selects (30_encoding.md R57, decision D24), on the state with the input
taken; without inputs it is IDLE (70_reset_and_hazards.md R179). The list of inputs is the model's (log entry 5). -/
def Obligations.StepRunsDecodedInstruction : Prop :=
  (∀ (s : State) (x : Stimulus) (rest : List Stimulus) (i : Instr), s.stimulus = x :: rest →
    decode (.sel6 (selector x.rst x.inValid s.cursor) x.data x.now) = .ok i → step s = exec i { s with stimulus := rest }) ∧
  (∀ s : State, s.stimulus = [] → step s = exec .idle s)

/-- Words written out from the tables of 30_encoding.md R50, R57, R58 and spec/opcode_table.json. -/
def Obligations.SpecWordsDecode : Prop :=
  decode (.sel6 0b100000#6 0x00#8 7) = .ok (.reset 7) ∧
  decode (.sel6 0b000000#6 0x00#8 7) = .ok .idle ∧
  decode (.sel6 0b010000#6 0x55#8 9) = .ok (.feedP0 0x55#8 9) ∧
  decode (.sel6 0b010101#6 0xAB#8 9) = .ok (.feedP5 0xAB#8 9) ∧
  decode (.sel6 0b011110#6 0x35#8 9) = .ok (.feedP14 0x35#8 9) ∧
  decode (.sel6 0b011111#6 0x35#8 9) = .ok .reservedSel1f ∧
  decode (.eofSel4 0b0010#4 9) = .ok (.eofRejectPrefix 9) ∧
  decode (.eofSel4 0b0101#4 9) = .ok (.eofRejectSeq 9) ∧
  decode (.eofSel4 0b1000#4 9) = .ok (.eofRejectCsum 9) ∧
  decode (.eofSel4 0b1001#4 9) = .ok (.eofDecode 9) ∧
  decode (.sel6Sub 0b010111#6 0x64#8) = .ok (.xaccAcc 0x64#8) ∧
  decode (.eofSel4Sub .bit 0b1001#4 0x0E#8 1 0) = .ok (.bit 0x0E#8 1)

/-- Decoding the encoding of a well-formed operation gives it back, for every row of the table and every operand. -/
def Obligations.DecodeEncodeRoundTrip : Prop :=
  ∀ (w : Nat) (i : Instr), i.wellFormed w = true → decode (encode i) = .ok i

/-- The SEL6 table of 30_encoding.md R57 (its layout is decision D24): every word selects a row whose mask and match it
meets, and no other row of the format. -/
def Obligations.SelectorWordsSelectOneRow : Prop :=
  ∀ (sel : BitVec 6) (b : Byte) (now : Nat),
    ((decodeSel6 sel b now).row.format = .sel6 ∧
      sel.toNat &&& (decodeSel6 sel b now).row.mask = (decodeSel6 sel b now).row.value) ∧
    ∀ i : Instr, i.row.format = .sel6 → sel.toNat &&& i.row.mask = i.row.value → (decodeSel6 sel b now).row = i.row

/-- The EOFSEL4 table of 30_encoding.md R58 (decision D24): a word selects an outcome whose row it belongs to, or it is one of
the unreachable patterns 000x, 011x, 101x, 110x, 111x (U10) and is rejected by name. -/
def Obligations.EndOfFrameWordsSelectOneRow : Prop :=
  ∀ (sel : BitVec 4) (now : Nat),
    (∃ i, decode (.eofSel4 sel now) = .ok i ∧ i.row.format = .eofSel4 ∧ sel.toNat &&& i.row.mask = i.row.value) ∨
    (decode (.eofSel4 sel now) = .error (.unreachableEofSel sel) ∧ sel.toNat ∈ [0, 1, 6, 7, 10, 11, 12, 13, 14, 15])

/-- A word of the SEL6 table placed for the next step is the operation the next step performs (the word 15 in the cursor bits
cannot be placed: the cursor never holds 15, log entry 13). -/
def Obligations.PlacedWordIsNextInstruction : Prop :=
  ∀ (s : State) (w : Nat), w < 64 → w % 16 ≠ 15 → decodeTableWord 8 w = some (s.withFetchWord 8 w).nextInstr

/-- 30_encoding.md R60 (a) (decision D16): RESERVED.SEL1F has no behaviour and stops, and no state's cursor selects it. -/
def Obligations.ReservedSelectorStopsAndIsNeverSelected : Prop :=
  (∀ s : State, exec .reservedSel1f s = .refused .reservedSelector) ∧
  (∀ (rst v : Bool) (k : Offset), selector rst v k ≠ 0b011111#6) ∧
  (∀ s : State, s.nextInstr ≠ .reservedSel1f)

-- ==== Reset, idle, totality ====

/-- RESET (70_reset_and_hazards.md R175, values of 10_state.md R22). The reset input is decision D4, RAW_INIT D10, `last_ts` D12. -/
def Obligations.ResetStep : Prop :=
  ∀ (s : State) (now : Nat), ∃ t, exec (.reset now) s = .next t ∧
    t.cursor = 0 ∧ t.acc = 0x00#8 ∧ t.frameOk = true ∧ t.synced = false ∧ t.err = .none ∧
    t.lastTs = now % 2 ^ s.config.tsWidth ∧ (∀ k : Offset, t.rawAt k = s.config.rawInit[k]) ∧ t.raw.wf = true ∧
    t.event = .none ∧ t.config = s.config ∧ t.stimulus = s.stimulus

/-- The state after reset (10_state.md R22). `last_ts` is 0 because the model takes 0 for the time of construction (log entry 4);
RAW_INIT is the configuration's. -/
def Obligations.ResetStateValues : Prop :=
  State.reset.cursor = 0 ∧ State.reset.acc = 0x00#8 ∧ State.reset.frameOk = true ∧ State.reset.synced = false ∧
  State.reset.err = .none ∧ State.reset.lastTs = 0 ∧ State.reset.event = .none ∧ State.reset.stimulus = [] ∧
  State.reset.config.policy = .terminate ∧ ∀ k : Offset, State.reset.rawAt k = State.reset.config.rawInit[k]

/-- 70_reset_and_hazards.md R176 (decision D4): with `rst = 1` the step is RESET, whatever byte is presented. -/
def Obligations.ResetHasPriorityOverByte : Prop :=
  ∀ (s : State) (v : Bool) (b : Byte) (now : Nat) (rest : List Stimulus), s.stimulus = ⟨true, v, b, now⟩ :: rest →
    step s = exec (.reset now) { s with stimulus := rest }

/-- 40_frame_sync.md R71 (decision D30): IDLE changes no element and emits no event. -/
def Obligations.IdleChangesNothing : Prop :=
  (∀ s : State, exec .idle s = .next { s with event := .none, value := .none }) ∧
  (∀ (s : State) (b : Byte) (now : Nat) (rest : List Stimulus), s.stimulus = ⟨false, false, b, now⟩ :: rest →
    step s = .next { s with event := .none, value := .none, stimulus := rest })

/-- 00_scope.md R8: every step is total. -/
def Obligations.EveryStepCompletes : Prop := ∀ s : State, ∃ t, step s = .next t

/-- Every operation but RESERVED.SEL1F completes in every state, keeps the configuration (10_state.md R18 (f)) and does not
touch the inputs to come. -/
def Obligations.EveryOperationCompletesAndKeepsConfig : Prop :=
  ∀ (i : Instr) (s : State), i ≠ .reservedSel1f →
    ∃ t, exec i s = .next t ∧ t.config = s.config ∧ t.stimulus = s.stimulus

-- ==== The feed step, position by position ====

/-- 40_frame_sync.md R72, FEED.P0, for a frame still valid; the mismatch under TERMINATE. -/
def Obligations.FeedP0ChecksMagic0 : Prop :=
  ∀ (s : State) (b : Byte) (now : Nat), s.frameOk = true →
    (b = 0x01#8 → exec (.feedP0 b now) s =
      .next { s with raw := s.raw.write 0 b, acc := s.acc ^^^ 0x01#8, cursor := 1, event := .none, value := .none }) ∧
    (b ≠ 0x01#8 → s.config.policy = .terminate → exec (.feedP0 b now) s =
      .next { s with
        raw := s.raw.write 0 b, cursor := 0, acc := 0x00#8, frameOk := true, err := .none,
        lastTs := now % 2 ^ s.config.tsWidth, value := .none,
        event := .rejected ⟨.prefixMismatch, (s.raw.write 0 b).snapshot⟩ })

/-- 40_frame_sync.md R73, FEED.P1, for a frame still valid; the mismatch under TERMINATE. -/
def Obligations.FeedP1ChecksMagic1 : Prop :=
  ∀ (s : State) (b : Byte) (now : Nat), s.frameOk = true →
    (b = 0x03#8 → exec (.feedP1 b now) s =
      .next { s with raw := s.raw.write 1 b, acc := s.acc ^^^ 0x03#8, cursor := 2, event := .none, value := .none }) ∧
    (b ≠ 0x03#8 → s.config.policy = .terminate → exec (.feedP1 b now) s =
      .next { s with
        raw := s.raw.write 1 b, cursor := 0, acc := 0x00#8, frameOk := true, err := .none,
        lastTs := now % 2 ^ s.config.tsWidth, value := .none,
        event := .rejected ⟨.prefixMismatch, (s.raw.write 1 b).snapshot⟩ })

/-- 40_frame_sync.md R74, FEED.P2, for a frame still valid; the mismatch under TERMINATE. -/
def Obligations.FeedP2ChecksFirstSequence : Prop :=
  ∀ (s : State) (b : Byte) (now : Nat), s.frameOk = true →
    (s.synced = true → exec (.feedP2 b now) s =
      .next { s with raw := s.raw.write 2 b, acc := s.acc ^^^ b, cursor := 3, event := .none, value := .none }) ∧
    (s.synced = false → b = 0x02#8 → exec (.feedP2 b now) s =
      .next { s with
        raw := s.raw.write 2 b, acc := s.acc ^^^ 0x02#8, cursor := 3, synced := true, event := .none, value := .none }) ∧
    (s.synced = false → b ≠ 0x02#8 → s.config.policy = .terminate → exec (.feedP2 b now) s =
      .next { s with
        raw := s.raw.write 2 b, cursor := 0, acc := 0x00#8, frameOk := true, err := .none,
        lastTs := now % 2 ^ s.config.tsWidth, value := .none,
        event := .rejected ⟨.unexpectedInitialSequence, (s.raw.write 2 b).snapshot⟩ })

/-- 40_frame_sync.md R75 to R85, FEED.P3 to FEED.P13, for a frame still valid: store, accumulate, increment. -/
def Obligations.FeedP3ToP13StoreAndAccumulate : Prop :=
  ∀ (s : State) (b : Byte) (now : Nat), s.frameOk = true →
    let after (k next : Offset) : State :=
      { s with raw := s.raw.write k b, acc := s.acc ^^^ b, cursor := next, event := .none, value := .none }
    exec (.feedP3 b now) s = .next (after 3 4) ∧ exec (.feedP4 b now) s = .next (after 4 5) ∧
    exec (.feedP5 b now) s = .next (after 5 6) ∧ exec (.feedP6 b now) s = .next (after 6 7) ∧
    exec (.feedP7 b now) s = .next (after 7 8) ∧ exec (.feedP8 b now) s = .next (after 8 9) ∧
    exec (.feedP9 b now) s = .next (after 9 10) ∧ exec (.feedP10 b now) s = .next (after 10 11) ∧
    exec (.feedP11 b now) s = .next (after 11 12) ∧ exec (.feedP12 b now) s = .next (after 12 13) ∧
    exec (.feedP13 b now) s = .next (after 13 14)

/-- 40_frame_sync.md R86, FEED.P14, for a frame still valid: the outcome is `Decoded` when `acc != 0` and `acc == b`, else
`Rejected{ChecksumMismatch}`. -/
def Obligations.FeedP14DecidesByChecksum : Prop :=
  ∀ (s : State) (b : Byte) (now : Nat), s.raw.wf = true → s.frameOk = true →
    exec (.feedP14 b now) s = .next { s with
      raw := s.raw.write 14 b, cursor := 0, acc := 0x00#8, frameOk := true, err := .none,
      lastTs := now % 2 ^ s.config.tsWidth, value := .none,
      event :=
        if s.acc ≠ 0x00#8 ∧ s.acc = b then
          .decoded
            { sequenceNumber := s.rawAt 2, entropyKey := s.rawAt 5, powerSetting := s.rawAt 7, configFlags := s.rawAt 9,
              brakingLevel := s.rawAt 10, pedalAssist := (s.rawAt 6).getLsbD 1, cruiseControl := (s.rawAt 6).getLsbD 2,
              softStart := (s.rawAt 6).getLsbD 3, interval := intervalOf s.config.tsWidth now s.lastTs }
        else .rejected ⟨.checksumMismatch, (s.raw.write 14 b).snapshot⟩ }

/-- 40_frame_sync.md R89 (a): under COLLECT a failed check marks the frame and goes on. -/
def Obligations.CollectFailedCheckContinues : Prop :=
  ∀ (s : State) (b : Byte) (now : Nat), s.frameOk = true → s.config.policy = .collect →
    (b ≠ 0x01#8 → exec (.feedP0 b now) s = .next { s with
      raw := s.raw.write 0 b, cursor := 1, frameOk := false, err := .prefixMismatch, event := .none, value := .none }) ∧
    (b ≠ 0x03#8 → exec (.feedP1 b now) s = .next { s with
      raw := s.raw.write 1 b, cursor := 2, frameOk := false, err := .prefixMismatch, event := .none, value := .none }) ∧
    (s.synced = false → b ≠ 0x02#8 → exec (.feedP2 b now) s = .next { s with
      raw := s.raw.write 2 b, cursor := 3, frameOk := false, err := .unexpectedInitialSequence, event := .none,
      value := .none })

/-- 40_frame_sync.md R89 (b), (c), (d) (decision D23): under COLLECT a byte of an invalid frame, before offset 14, is only stored:
no check, nothing accumulated, `synced` and `err` kept. FEED.P0 to FEED.P13. -/
def Obligations.CollectInvalidFrameOnlyStores : Prop :=
  ∀ (s : State) (k : Offset) (b : Byte) (now : Nat), k ≠ 14 → s.frameOk = false → s.config.policy = .collect →
    exec (feedInstr k b now) s =
      .next { s with raw := s.raw.write k b, cursor := k + 1, event := .none, value := .none }

/-- An invalid frame that ends reports the recorded reason (R89 (e) at offset 14; R70 sub-step 4 under TERMINATE, in states no
run reaches). The order of the tests is decision D8. -/
def Obligations.InvalidFrameReportsRecordedReason : Prop :=
  ∀ (s : State) (k : Offset) (b : Byte) (now : Nat), s.frameOk = false → (k = 14 ∨ s.config.policy = .terminate) →
    let after (r : Reason) : State :=
      { s with
        raw := s.raw.write k b, cursor := 0, acc := 0x00#8, frameOk := true, err := .none,
        lastTs := now % 2 ^ s.config.tsWidth, value := .none,
        event := .rejected ⟨r, (s.raw.write k b).snapshot⟩ }
    (s.err = .prefixMismatch → exec (feedInstr k b now) s = .next (after .prefixMismatch)) ∧
    (s.err = .unexpectedInitialSequence → exec (feedInstr k b now) s = .next (after .unexpectedInitialSequence))

/-- The frame of FEED.P0 to FEED.P14 (10_state.md R11, 20_memory.md R35): the byte is stored at the position's offset and every
other byte of RawFrame is as before; `synced` changes at position 2 only; without an event `last_ts` is as before. -/
def Obligations.FeedFrame : Prop :=
  ∀ (s t : State) (k : Offset) (b : Byte) (now : Nat), s.raw.wf = true → exec (feedInstr k b now) s = .next t →
    t.rawAt k = b ∧ (∀ a : Offset, a ≠ k → t.rawAt a = s.rawAt a) ∧ t.config = s.config ∧ t.stimulus = s.stimulus ∧
    (k ≠ 2 → t.synced = s.synced) ∧ (t.event = .none → t.lastTs = s.lastTs)

-- ==== Cursor, mode, events ====

/-- 40_frame_sync.md R87, under TERMINATE: a feed step entered at `k` leaves the cursor at `k + 1`, or at 0 when `k = 14` or the
check failed. -/
def Obligations.CursorLaw : Prop :=
  ∀ (s : State) (b : Byte) (now : Nat) (rest : List Stimulus), s.Inv → s.config.policy = .terminate →
    s.stimulus = Stimulus.feed b now :: rest →
    ∃ t, step s = .next t ∧
      (s.cursor.val = 14 ∨ s.FailsCheck b → t.cursor.val = 0) ∧
      (¬ (s.cursor.val = 14 ∨ s.FailsCheck b) → t.cursor.val = s.cursor.val + 1)

/-- 40_frame_sync.md R89 (f): under COLLECT every frame occupies fifteen steps and every event comes at offset 14. -/
def Obligations.CollectCursorLaw : Prop :=
  ∀ (s : State) (b : Byte) (now : Nat) (rest : List Stimulus), s.config.policy = .collect →
    s.stimulus = Stimulus.feed b now :: rest →
    ∃ t, step s = .next t ∧
      (s.cursor.val = 14 → t.cursor.val = 0 ∧ t.event ≠ .none) ∧
      (s.cursor.val ≠ 14 → t.cursor.val = s.cursor.val + 1 ∧ t.event = .none)

/-- 42_end_of_frame.md R117 (derived there): a feed step emits an event exactly when it leaves the cursor at 0; IDLE and RESET
emit none. -/
def Obligations.EventExactlyAtFrameEnd : Prop :=
  (∀ (s : State) (b : Byte) (now : Nat) (rest : List Stimulus), s.stimulus = Stimulus.feed b now :: rest →
    ∃ t, step s = .next t ∧ (t.event ≠ .none ↔ t.cursor.val = 0)) ∧
  (∀ (s : State) (x : Stimulus) (rest : List Stimulus), s.stimulus = x :: rest → x.rst = true ∨ x.inValid = false →
    ∃ t, step s = .next t ∧ t.event = .none)

/-- 40_frame_sync.md R88 (decision D13): `synced` is set by the feed step at cursor 2 of a valid frame with byte 2 and by nothing
else, and cleared by RESET only. -/
def Obligations.SynchronizationTransitions : Prop :=
  ∀ s t : State, step s = .next t →
    (s.synced = false → (t.synced = true ↔
      s.nextInput.rst = false ∧ s.nextInput.inValid = true ∧ s.cursor.val = 2 ∧ s.frameOk = true ∧
        s.nextInput.data = 0x02#8)) ∧
    (s.synced = true → (t.synced = false ↔ s.nextInput.rst = true))

/-- 60_exceptions.md R157: an event is emitted in the step of a byte, after that byte is stored; it changes what the epilogue
changes and neither `synced` nor `raw`, and the next feed step performs FEED.P0. The same for `Decoded` and for `Rejected`. -/
def Obligations.CompletionChangesOnlyTheEpilogue : Prop :=
  ∀ (s t : State), step s = .next t → t.event ≠ .none →
    s.nextInput.rst = false ∧ s.nextInput.inValid = true ∧
    t = { s with
      raw := s.raw.write s.cursor s.nextInput.data, cursor := 0, acc := 0x00#8, frameOk := true, err := .none,
      lastTs := s.nextInput.now % 2 ^ s.config.tsWidth, event := t.event, value := .none, stimulus := s.stimulus.tail } ∧
    ∀ (b : Byte) (now : Nat) (rest : List Stimulus), t.stimulus = Stimulus.feed b now :: rest → t.nextInstr = .feedP0 b now

/-- 43_field_extract.md R130 and 20_memory.md R38 (decisions D5, D17): the snapshot of a rejection entered at offset `p` holds the
triggering byte at `p` and the buffer's bytes, current below `p` and stale above, everywhere else. -/
def Obligations.RejectionSnapshotKeepsStaleBytes : Prop :=
  ∀ (s t : State) (e : FrameError), s.raw.wf = true → step s = .next t → t.event = .rejected e →
    ∀ k : Offset, e.raw[k] = if k = s.cursor then s.nextInput.data else s.rawAt k

/-- 40_frame_sync.md R87 ("Idempotence of reset"): after any event the block stands at the start of a frame, and the next byte
is FEED.P0. -/
def Obligations.CompletionStartsFreshFrame : Prop :=
  ∀ (s t : State), step s = .next t → t.event ≠ .none →
    t.AtFrameStart ∧ t.err = .none ∧
    ∀ (b : Byte) (now : Nat) (rest : List Stimulus), t.stimulus = Stimulus.feed b now :: rest → t.nextInstr = .feedP0 b now

/-- 60_exceptions.md R150 under TERMINATE: which byte raises which error (the table's numeric codes are decision D9). -/
def Obligations.RejectionConditions : Prop :=
  ∀ (s : State) (b : Byte) (now : Nat) (rest : List Stimulus), s.Inv → s.config.policy = .terminate →
    s.stimulus = Stimulus.feed b now :: rest →
    ∃ t, step s = .next t ∧
      ((∃ raw, t.event = .rejected ⟨.prefixMismatch, raw⟩) ↔
        (s.cursor.val = 0 ∧ b ≠ 0x01#8) ∨ (s.cursor.val = 1 ∧ b ≠ 0x03#8)) ∧
      ((∃ raw, t.event = .rejected ⟨.unexpectedInitialSequence, raw⟩) ↔
        s.cursor.val = 2 ∧ s.synced = false ∧ b ≠ 0x02#8) ∧
      ((∃ raw, t.event = .rejected ⟨.checksumMismatch, raw⟩) ↔
        s.cursor.val = 14 ∧ (s.acc = 0x00#8 ∨ s.acc ≠ b))

/-- 44_timing.md R142 (decision D14): every completion, and no other feed step, moves `last_ts` to `now`. -/
def Obligations.CompletionsMoveTimestamp : Prop :=
  ∀ (s : State) (b : Byte) (now : Nat) (rest : List Stimulus), s.stimulus = Stimulus.feed b now :: rest →
    ∃ t, step s = .next t ∧
      t.lastTs = if t.event = .none then s.lastTs else now % 2 ^ s.config.tsWidth

/-- `Decoded` only when all checks pass (42_end_of_frame.md R115 "When", 95_test_vectors.md section 4 claim 5): the buffer then
holds 01, 03, a non-zero checksum that is the XOR of bytes 0 to 13, and the fields are the buffer's bytes and bits. -/
def Obligations.DecodedOnlyWhenChecksPass : Prop :=
  ∀ (s t : State) (d : DecodedFrame), s.Inv → step s = .next t → t.event = .decoded d →
    s.cursor.val = 14 ∧ s.synced = true ∧ t.synced = true ∧ t.rawAt 0 = 0x01#8 ∧ t.rawAt 1 = 0x03#8 ∧
    t.raw.xorBelow 14 = t.rawAt 14 ∧ t.rawAt 14 ≠ 0x00#8 ∧
    d.sequenceNumber = t.rawAt 2 ∧ d.entropyKey = t.rawAt 5 ∧ d.powerSetting = t.rawAt 7 ∧ d.configFlags = t.rawAt 9 ∧
    d.brakingLevel = t.rawAt 10 ∧ d.pedalAssist = (t.rawAt 6).getLsbD 1 ∧ d.cruiseControl = (t.rawAt 6).getLsbD 2 ∧
    d.softStart = (t.rawAt 6).getLsbD 3 ∧ d.interval = intervalOf s.config.tsWidth s.nextInput.now s.lastTs

-- ==== End of frame ====

/-- 42_end_of_frame.md R112, R113, R114: the three rejections, run by themselves in every state (log entry 10). -/
def Obligations.EofRejectOutcomes : Prop :=
  ∀ (s : State) (now : Nat),
    let after (r : Reason) : State :=
      { s with
        cursor := 0, acc := 0x00#8, frameOk := true, err := .none, lastTs := now % 2 ^ s.config.tsWidth, value := .none,
        event := .rejected ⟨r, s.raw.snapshot⟩ }
    exec (.eofRejectPrefix now) s = .next (after .prefixMismatch) ∧
    exec (.eofRejectSeq now) s = .next (after .unexpectedInitialSequence) ∧
    exec (.eofRejectCsum now) s = .next (after .checksumMismatch)

/-- 42_end_of_frame.md R115, the pseudocode of EOF.DECODE, run by itself in every state (log entry 10); `last_ts` is read before the epilogue writes it. Clearing `err` is the
spec's own addition (R116). -/
def Obligations.EofDecodeOutcome : Prop :=
  ∀ (s : State) (now : Nat), exec (.eofDecode now) s = .next { s with
    cursor := 0, acc := 0x00#8, frameOk := true, err := .none, lastTs := now % 2 ^ s.config.tsWidth, value := .none,
    event := .decoded
      { sequenceNumber := s.rawAt 2, entropyKey := s.rawAt 5, powerSetting := s.rawAt 7, configFlags := s.rawAt 9,
        brakingLevel := s.rawAt 10, pedalAssist := (s.rawAt 6).getLsbD 1, cruiseControl := (s.rawAt 6).getLsbD 2,
        softStart := (s.rawAt 6).getLsbD 3, interval := intervalOf s.config.tsWidth now s.lastTs } }

/-- 42_end_of_frame.md R116, EOF.EPILOGUE. Clearing `err` is the spec's own addition there. -/
def Obligations.EofEpilogueResets : Prop :=
  ∀ (s : State) (now : Nat), exec (.eofEpilogue now) s = .next { s with
    lastTs := now % 2 ^ s.config.tsWidth, cursor := 0, acc := 0x00#8, frameOk := true, err := .none, event := .none,
    value := .none }

/-- 42_end_of_frame.md R111 with 30_encoding.md R58 (decisions D8, D24): the end-of-frame word selects the outcome, validity
before checksum. -/
def Obligations.EndOfFrameDecision : Prop :=
  ∀ (s : State) (now : Nat),
    (s.frameOk = false → s.err = .prefixMismatch →
      decode (.eofSel4 s.eofSel now) = .ok (.eofRejectPrefix now)) ∧
    (s.frameOk = false → s.err = .unexpectedInitialSequence →
      decode (.eofSel4 s.eofSel now) = .ok (.eofRejectSeq now)) ∧
    (s.frameOk = true → s.err = .none → s.acc = 0x00#8 ∨ s.acc ≠ s.rawAt 14 →
      decode (.eofSel4 s.eofSel now) = .ok (.eofRejectCsum now)) ∧
    (s.frameOk = true → s.err = .none → s.acc ≠ 0x00#8 → s.acc = s.rawAt 14 →
      decode (.eofSel4 s.eofSel now) = .ok (.eofDecode now))

/-- 42_end_of_frame.md R110, R111 (decision D8): FEED.P14 stores its byte and then performs the outcome its end-of-frame word
selects. -/
def Obligations.FeedP14RunsSelectedOutcome : Prop :=
  ∀ (s : State) (b : Byte) (now : Nat) (i : Instr),
    decode (.eofSel4 { s with raw := s.raw.write 14 b }.eofSel now) = .ok i →
    exec (.feedP14 b now) s = exec i { s with raw := s.raw.write 14 b }

-- ==== Sub-operations ====

/-- 41_checksum.md R100. First clause: XACC.ACC run by itself, which is the model's choice, with the state's cursor for the entry
cursor and the state's `frame_ok` for the one after the check (log entry 10). Second clause: the same as sub-step 3 of a feed step,
by the `frame_ok` that the step's check leaves. -/
def Obligations.XaccAccumulates : Prop :=
  (∀ (s : State) (b : Byte), exec (.xaccAcc b) s = .next { s with
    acc := if s.frameOk = true ∧ s.cursor.val ≤ 13 then s.acc ^^^ b else s.acc, event := .none, value := .none }) ∧
  (∀ (s t : State) (k : Offset) (b : Byte) (now : Nat), exec (feedInstr k b now) s = .next t → t.event = .none →
    k.val ≤ 13 ∧ t.acc = if t.frameOk = true then s.acc ^^^ b else s.acc)

/-- 41_checksum.md R101, XACC.CLR; and after every frame completion and every RESET the accumulator is 0. -/
def Obligations.XaccClears : Prop :=
  (∀ s : State, exec .xaccClr s = .next { s with acc := 0x00#8, event := .none, value := .none }) ∧
  (∀ s t : State, step s = .next t → t.event ≠ .none ∨ s.nextInput.rst = true → t.acc = 0x00#8)

/-- 41_checksum.md R102. First clause: XACC.CHK run by itself in every state, its `csum_ok`, `(acc != 0) and (acc == raw[14])`, in the
model's own value field; both are the model's choice (log entries 7, 10). Second clause: after the store of byte 14 the same test
decides between EOF.DECODE and EOF.REJECT.CSUM. -/
def Obligations.XaccChecks : Prop :=
  (∀ s : State, exec .xaccChk s = .next { s with
    event := .none, value := .csumOk (decide (s.acc ≠ 0x00#8 ∧ s.acc = s.rawAt 14)) }) ∧
  (∀ (s : State) (b : Byte) (now : Nat), s.raw.wf = true → s.frameOk = true →
    (s.acc ≠ 0x00#8 ∧ s.acc = b →
      exec (.feedP14 b now) s = exec (.eofDecode now) { s with raw := s.raw.write 14 b }) ∧
    (¬ (s.acc ≠ 0x00#8 ∧ s.acc = b) →
      exec (.feedP14 b now) s = exec (.eofRejectCsum now) { s with raw := s.raw.write 14 b }))

/-- 43_field_extract.md R125, BIT: `floor(v / 2^i) mod 2`. The positions 0 and 8 and above rest on decision D26 and U11; the
value field is the model's own (log entries 7, 10). -/
def Obligations.BitIsQuotientParity : Prop :=
  ∀ (s : State) (v : Byte) (i : Nat), exec (.bit v i) s = .next { s with
    event := .none, value := .bit (decide (v.toNat / 2 ^ i % 2 = 1)) }

/-- 43_field_extract.md R126, FIELDS run by itself, its result in the model's own value field; both are the model's choice (log
entries 7, 10). As part of EOF.DECODE: `EofDecodeOutcome`. -/
def Obligations.FieldsAreWholeBytes : Prop :=
  ∀ s : State, exec .fields s = .next { s with
    event := .none, value := .fields ⟨s.rawAt 2, s.rawAt 5, s.rawAt 7, s.rawAt 9, s.rawAt 10⟩ }

/-- 43_field_extract.md R127, R128, FLAGS: bits 1, 2, 3 of byte 6. That FLAGS runs by itself and leaves its result in the model's own
value field is the model's choice (log entries 7, 10). As part of EOF.DECODE: `EofDecodeOutcome`. -/
def Obligations.FlagsAreBitsOfByte6 : Prop :=
  ∀ s : State, exec .flags s = .next { s with
    event := .none, value := .flags ⟨(s.rawAt 6).getLsbD 1, (s.rawAt 6).getLsbD 2, (s.rawAt 6).getLsbD 3⟩ }

/-- 44_timing.md R141, TS.INTERVAL: the difference modulo `2^TS_WIDTH`, never negative (R144); the value field is the model's own (log
entries 7, 10). -/
def Obligations.TsIntervalIsModularDifference : Prop :=
  ∀ (s : State) (now : Nat), ∃ n : Nat, exec (.tsInterval now) s = .next { s with event := .none, value := .interval n } ∧
    (n : Int) = ((now : Int) - (s.lastTs : Int)) % 2 ^ s.config.tsWidth

/-- 44_timing.md R142, TS.UPDATE, for a `now` of TS_WIDTH bits. -/
def Obligations.TsUpdateCapturesNow : Prop :=
  ∀ (s : State) (now : Nat), now < 2 ^ s.config.tsWidth →
    exec (.tsUpdate now) s = .next { s with lastTs := now, event := .none, value := .none }

/-- The frame of the operations that store no byte: EOF.REJECT.PREFIX, EOF.REJECT.SEQ, EOF.REJECT.CSUM, EOF.DECODE, EOF.EPILOGUE,
XACC.ACC, XACC.CLR, XACC.CHK, BIT, FIELDS, FLAGS, TS.INTERVAL, TS.UPDATE and IDLE. Every byte of RawFrame and `synced` are as
before (42_end_of_frame.md R116; 10_state.md R11, R15). -/
def Obligations.OperationsWithoutStoreKeepRawFrame : Prop :=
  ∀ (i : Instr) (s t : State) (now : Nat) (v : Byte) (n : Nat),
    i ∈ [.eofRejectPrefix now, .eofRejectSeq now, .eofRejectCsum now, .eofDecode now, .eofEpilogue now, .xaccAcc v, .xaccClr,
      .xaccChk, .bit v n, .fields, .flags, .tsInterval now, .tsUpdate now, .idle] →
    exec i s = .next t →
    (∀ a : Offset, t.rawAt a = s.rawAt a) ∧ t.synced = s.synced ∧ t.config = s.config ∧ t.stimulus = s.stimulus

/-- The frame of the operations that only compute: XACC.CHK, BIT, FIELDS, FLAGS, TS.INTERVAL write none of the seven elements
(41_checksum.md R102; 43_field_extract.md R125, R126, R127; 44_timing.md R141). -/
def Obligations.ComputingOperationsWriteNothing : Prop :=
  ∀ (i : Instr) (s t : State) (now : Nat) (v : Byte) (n : Nat),
    i ∈ [.xaccChk, .bit v n, .fields, .flags, .tsInterval now] → exec i s = .next t →
    t = { s with event := .none, value := t.value }

-- ==== Frames and streams ====

/-- 30_encoding.md R64 (decision D20): FRAME is the fifteen feed steps of its bytes, byte i at `t0 + i * d`. -/
def Obligations.FrameIsFifteenFeedSteps : Prop :=
  ∀ (s : State) (f : WireFrame) (t0 d : Nat) (rest : List Stimulus),
    Sys2Proof.core.run 15
      { s with
        stimulus :=
          [Stimulus.feed 0x01#8 (t0 + d), Stimulus.feed 0x03#8 (t0 + 2 * d), Stimulus.feed f.seq (t0 + 3 * d),
            Stimulus.feed f.r3 (t0 + 4 * d), Stimulus.feed f.r4 (t0 + 5 * d), Stimulus.feed f.entropy (t0 + 6 * d),
            Stimulus.feed f.flags (t0 + 7 * d), Stimulus.feed f.power (t0 + 8 * d), Stimulus.feed f.r8 (t0 + 9 * d),
            Stimulus.feed f.config (t0 + 10 * d), Stimulus.feed f.braking (t0 + 11 * d), Stimulus.feed f.r11 (t0 + 12 * d),
            Stimulus.feed f.r12 (t0 + 13 * d), Stimulus.feed f.r13 (t0 + 14 * d), Stimulus.feed f.csum (t0 + 15 * d)]
            ++ rest } =
      exec (.frame f t0 d) { s with stimulus := rest }

/-- FRAME at the start of a frame, when every check passes (30_encoding.md R62, derived there): `Decoded` with the frame's own bytes. -/
def Obligations.FrameAccepted : Prop :=
  ∀ (s : State) (f : WireFrame) (t0 d : Nat), s.AtFrameStart → s.raw.wf = true → (s.synced = true ∨ f.seq = 0x02#8) →
    let x : Byte := 0x01#8 ^^^ 0x03#8 ^^^ f.seq ^^^ f.r3 ^^^ f.r4 ^^^ f.entropy ^^^ f.flags ^^^ f.power ^^^ f.r8 ^^^ f.config ^^^
      f.braking ^^^ f.r11 ^^^ f.r12 ^^^ f.r13
    x ≠ 0x00#8 → f.csum = x →
    ∃ t, exec (.frame f t0 d) s = .next t ∧
      t.event = .decoded
        { sequenceNumber := f.seq, entropyKey := f.entropy, powerSetting := f.power, configFlags := f.config,
          brakingLevel := f.braking, pedalAssist := f.flags.getLsbD 1, cruiseControl := f.flags.getLsbD 2,
          softStart := f.flags.getLsbD 3, interval := intervalOf s.config.tsWidth (t0 + 15 * d) s.lastTs } ∧
      t.AtFrameStart ∧ t.synced = true ∧ t.lastTs = (t0 + 15 * d) % 2 ^ s.config.tsWidth ∧
      t.raw.snapshot.toList = f.bytes

/-- FRAME at the start of a frame, with the prefix and the sequence right and a zero XOR or a wrong byte 14 (41_checksum.md R102, R105;
S5, S6): `Rejected{ChecksumMismatch}` with the whole frame. -/
def Obligations.FrameWithBadChecksumRejected : Prop :=
  ∀ (s : State) (f : WireFrame) (t0 d : Nat), s.AtFrameStart → s.raw.wf = true → (s.synced = true ∨ f.seq = 0x02#8) →
    let x : Byte := 0x01#8 ^^^ 0x03#8 ^^^ f.seq ^^^ f.r3 ^^^ f.r4 ^^^ f.entropy ^^^ f.flags ^^^ f.power ^^^ f.r8 ^^^ f.config ^^^
      f.braking ^^^ f.r11 ^^^ f.r12 ^^^ f.r13
    x = 0x00#8 ∨ f.csum ≠ x →
    ∃ t e, exec (.frame f t0 d) s = .next t ∧ t.event = .rejected e ∧ e.reason = .checksumMismatch ∧
      e.raw.toList = f.bytes ∧ t.AtFrameStart ∧ t.synced = true ∧ t.lastTs = (t0 + 15 * d) % 2 ^ s.config.tsWidth

/-- 30_encoding.md R62 (derived there), under both policies: fifteen bytes fed at the start of a frame produce `Decoded` on the
fifteenth and no event before it if and only if the five conditions hold. -/
def Obligations.AcceptedFramesCharacterised : Prop :=
  ∀ (s : State) (f : Fin 15 → Byte) (at_ : Fin 15 → Nat) (rest : List Stimulus), s.AtFrameStart → s.raw.wf = true →
    s.stimulus = (List.ofFn fun n => Stimulus.feed (f n) (at_ n)) ++ rest →
    let x : Byte := f 0 ^^^ f 1 ^^^ f 2 ^^^ f 3 ^^^ f 4 ^^^ f 5 ^^^ f 6 ^^^ f 7 ^^^ f 8 ^^^ f 9 ^^^ f 10 ^^^ f 11 ^^^ f 12 ^^^ f 13
    ((∀ n, 1 ≤ n → n ≤ 14 → ∃ t, Sys2Proof.core.run n s = .next t ∧ t.event = .none) ∧
      (∃ t d, Sys2Proof.core.run 15 s = .next t ∧ t.event = .decoded d)) ↔
    (f 0 = 0x01#8 ∧ f 1 = 0x03#8 ∧ (s.synced = true ∨ f 2 = 0x02#8) ∧ x ≠ 0x00#8 ∧ f 14 = x)

/-- 40_frame_sync.md R90 (derived there), under TERMINATE: bytes other than 0x01 at the start of a frame are rejected one by one, and
the block goes on hunting at cursor 0. -/
def Obligations.NoiseIsRejectedByteByByte : Prop :=
  ∀ (s : State) (noise : List (Byte × Nat)) (rest : List Stimulus), s.AtFrameStart → s.raw.wf = true →
    s.config.policy = .terminate → (∀ x ∈ noise, x.1 ≠ 0x01#8) → noise ≠ [] →
    s.stimulus = noise.map (fun x => Stimulus.feed x.1 x.2) ++ rest →
    ∃ t e, Sys2Proof.core.run noise.length s = .next t ∧ t.event = .rejected e ∧ e.reason = .prefixMismatch ∧
      t.AtFrameStart ∧ t.synced = s.synced ∧ t.stimulus = rest ∧ ∀ k : Offset, k ≠ 0 → t.rawAt k = s.rawAt k

-- ==== Noninterference ====

/-- 43_field_extract.md R132 (derived there): states that differ only in stale bytes and RAW_INIT give the same event but for its
raw snapshot, and differ only so afterwards. -/
def Obligations.StaleBytesDoNotMatter : Prop :=
  ∀ s₁ s₂ t₁ t₂ : State, SameButStale s₁ s₂ → s₁.Inv → s₂.Inv → step s₁ = .next t₁ → step s₂ = .next t₂ →
    SameButStale t₁ t₂ ∧ t₁.event.forgetRaw = t₂.event.forgetRaw

/-- 44_timing.md R145 (derived there): time changes no event kind, reason, snapshot, byte or flag, whatever the widths; of width 0
every interval is 0. -/
def Obligations.TimeDoesNotAffectDecoding : Prop :=
  (∀ s₁ s₂ t₁ t₂ : State, s₁.forgetTime = s₂.forgetTime → step s₁ = .next t₁ → step s₂ = .next t₂ →
    t₁.forgetTime = t₂.forgetTime) ∧
  (∀ (s t : State) (d : DecodedFrame), s.config.tsWidth = 0 → step s = .next t → t.event = .decoded d → d.interval = 0)

-- ==== Ports ====

/-- 30_encoding.md R63 and 60_exceptions.md R150 (decision D9): the codes on `evt_kind` and `evt_reason`; no value stands on a field
port outside a `Decoded` step (D15, log entry 6). -/
def Obligations.EventPortCodes : Prop :=
  ∀ s : State,
    (s.event = .none → s.evtKind = 0#2 ∧ s.evtReason = 0#2 ∧ s.fieldPorts = none) ∧
    (∀ d, s.event = .decoded d → s.evtKind = 1#2 ∧ s.evtReason = 0#2 ∧ s.fieldPorts = some d) ∧
    (∀ e, s.event = .rejected e → s.evtKind = 2#2 ∧ s.fieldPorts = none ∧
      (e.reason = .prefixMismatch → s.evtReason = 1#2) ∧ (e.reason = .unexpectedInitialSequence → s.evtReason = 2#2) ∧
      (e.reason = .checksumMismatch → s.evtReason = 3#2)) ∧
    s.evtKind ≠ 3#2

/-- 10_state.md R23 (decision D2): `raw_out[8k+7:8k] = raw[k]`. -/
def Obligations.RawOutShowsEveryByte : Prop :=
  ∀ (s : State) (k : Offset), s.rawOut.extractLsb' (8 * k.val) 8 = s.rawAt k

-- ==== The invariant ====

/-- The invariants of 10_state.md R21 (derived there) hold at reset. -/
def Obligations.ResetHasInvariant : Prop := State.reset.Inv

/-- The invariants of 10_state.md R21 (derived there), the canonical form of RawFrame and the range of `last_ts` are kept by every
step, under both policies. -/
def Obligations.StepKeepsInvariant : Prop := ∀ s t : State, s.Inv → step s = .next t → t.Inv

-- ==== What is state and what is not ====

/-- 10_state.md R18 and 20_memory.md R40: a step of a run is the block's own step, from the seven elements, the configuration and the
input of this step alone; the event is its output. The configuration stays and the input is taken. Nothing else a run carries (the
last event, the last value, the inputs after this one) reaches the block or the event. That a run carries them is the model's choice
(log entries 1, 5, 6, 7, 16). -/
def Obligations.StepReadsOnlyBlockConfigAndInput : Prop :=
  (∀ s t : State, step s = .next t →
    (t.toBlock, t.event) = s.toBlock.step s.config s.nextInput ∧ t.config = s.config ∧ t.stimulus = s.stimulus.tail) ∧
  (∀ s₁ s₂ t₁ t₂ : State, s₁.toBlock = s₂.toBlock → s₁.config = s₂.config → s₁.nextInput = s₂.nextInput →
    step s₁ = .next t₁ → step s₂ = .next t₂ → t₁.toBlock = t₂.toBlock ∧ t₁.event = t₂.event)
end

