-- ==== Sys2Proof/Laws/Memory.lean ====
section
/-! SUPPORT. The laws of RawFrame: a read after a write, the canonical form, a whole buffer loaded and read. -/

namespace Sys2Proof.Machine

theorem Memory.read_write (m : Memory) (a : Nat) (v : Byte) (b : Nat) (lo hi : Nat) (h : Memory.wfFrom lo hi m = true) :
    (m.write a v).read b = if b = a then v else m.read b := by
  induction m generalizing lo with
  | nil => by_cases hv : v = Memory.unlisted <;> simp [Memory.write, Memory.read, hv, eq_comm]
  | cons c rest ih =>
    obtain ⟨k, w⟩ := c
    simp only [Memory.wfFrom, Bool.and_eq_true, decide_eq_true_eq] at h
    obtain ⟨⟨⟨_, _⟩, _⟩, hrest⟩ := h
    have below : ∀ (l : Memory) (n : Nat), Memory.wfFrom n hi l = true → ∀ x, x < n → l.read x = Memory.unlisted := by
      intro l
      induction l with
      | nil => intros; rfl
      | cons d l ihl =>
        intro n hn x hx
        simp only [Memory.wfFrom, Bool.and_eq_true, decide_eq_true_eq] at hn
        have : d.1 ≠ x := by omega
        simp only [Memory.read, this, if_false]
        exact ihl _ hn.2 x (by omega)
    have hb := below rest (k + 1) hrest
    have ih' := ih (k + 1) hrest
    unfold Memory.write
    split
    · next hlt =>
      by_cases hv : v = Memory.unlisted
      · by_cases hba : b = a
        · subst hba
          simp [hv, Memory.read, show k ≠ b by omega, hb b (by omega)]
        · simp [hv, hba]
      · by_cases hba : b = a
        · simp [hv, hba, Memory.read]
        · simp [hv, hba, Memory.read, show a ≠ b by omega]
    · split
      · next hlt heq =>
        subst heq
        by_cases hv : v = Memory.unlisted
        · by_cases hba : b = a
          · subst hba; simp [hv, hb b (by omega)]
          · simp [hv, hba, Memory.read, show a ≠ b by omega]
        · by_cases hba : b = a
          · simp [hv, hba, Memory.read]
          · simp [hv, hba, Memory.read, show a ≠ b by omega]
      · next hlt hne =>
        by_cases hkb : k = b
        · subst hkb; simp [Memory.read, show k ≠ a by omega]
        · simp [Memory.read, hkb, ih']

theorem Memory.wfFrom_write (m : Memory) (a : Nat) (v : Byte) (lo hi : Nat) (hlo : lo ≤ a) (hhi : a < hi)
    (h : Memory.wfFrom lo hi m = true) : Memory.wfFrom lo hi (m.write a v) = true := by
  induction m generalizing lo with
  | nil => by_cases hv : v = Memory.unlisted <;> simp [Memory.write, Memory.wfFrom, hv, hlo, hhi]
  | cons c rest ih =>
    obtain ⟨k, w⟩ := c
    have weaken : ∀ (l : Memory) (n p : Nat), p ≤ n → Memory.wfFrom n hi l = true → Memory.wfFrom p hi l = true := by
      intro l n p hp hn
      cases l with
      | nil => rfl
      | cons d l =>
        simp only [Memory.wfFrom, Bool.and_eq_true, decide_eq_true_eq] at hn ⊢
        exact ⟨⟨⟨by omega, hn.1.1.2⟩, hn.1.2⟩, hn.2⟩
    have hw := h
    simp only [Memory.wfFrom, Bool.and_eq_true, decide_eq_true_eq] at h
    obtain ⟨⟨⟨h1, h2⟩, h3⟩, hrest⟩ := h
    unfold Memory.write
    split
    · next hlt =>
      by_cases hv : v = Memory.unlisted
      · simp only [hv, if_true]; exact hw
      · simp only [hv, if_false, Memory.wfFrom, Bool.and_eq_true, decide_eq_true_eq]
        exact ⟨⟨⟨hlo, hhi⟩, hv⟩, ⟨⟨by omega, h2⟩, h3⟩, hrest⟩
    · split
      · next hlt heq =>
        subst heq
        by_cases hv : v = Memory.unlisted
        · simp only [hv, if_true]; exact weaken _ _ _ (by omega) hrest
        · simp only [hv, if_false, Memory.wfFrom, Bool.and_eq_true, decide_eq_true_eq]
          exact ⟨⟨⟨hlo, hhi⟩, hv⟩, hrest⟩
      · simp only [Memory.wfFrom, Bool.and_eq_true, decide_eq_true_eq]
        exact ⟨⟨⟨h1, h2⟩, h3⟩, ih (k + 1) (by omega) hrest⟩

/-- A write at an offset of RawFrame keeps the canonical form. -/
theorem Memory.wf_write (m : Memory) (k : Offset) (v : Byte) (h : m.wf = true) : (m.write k.val v).wf = true :=
  Memory.wfFrom_write m k.val v 0 15 (Nat.zero_le _) k.isLt h

/-- A read after a write to a canonical buffer. -/
theorem Memory.read_write_wf (m : Memory) (a : Nat) (v : Byte) (b : Nat) (h : m.wf = true) :
    (m.write a v).read b = if b = a then v else m.read b := Memory.read_write m a v b 0 15 h

theorem Memory.wf_load (v : Nat → Byte) : ∀ n, n ≤ 15 → (Memory.load v n).wf = true
  | 0, _ => rfl
  | n + 1, h => Memory.wfFrom_write _ n (v n) 0 15 (Nat.zero_le _) (by omega) (Memory.wf_load v n (by omega))

theorem Memory.read_load (v : Nat → Byte) (a : Nat) :
    ∀ n, n ≤ 15 → (Memory.load v n).read a = if a < n then v a else Memory.unlisted
  | 0, _ => rfl
  | n + 1, h => by
    rw [Memory.load, Memory.read_write_wf _ _ _ _ (Memory.wf_load v n (by omega)), Memory.read_load v a n (by omega)]
    by_cases h1 : a = n
    · simp [h1]
    · simp [h1, show (a < n + 1) = (a < n) by simp; omega]

/-- RAW_INIT loaded is canonical. -/
theorem Memory.wf_ofFrame (f : RawFrame) : (Memory.ofFrame f).wf = true := by
  rw [Memory.ofFrame]
  exact Memory.wf_load _ 15 (le_refl _)

/-- RAW_INIT loaded reads as RAW_INIT. -/
theorem Memory.read_ofFrame (f : RawFrame) (k : Offset) : (Memory.ofFrame f).read k.val = f[k] := by
  rw [Memory.ofFrame, Memory.read_load _ _ 15 (le_refl _), if_pos k.isLt]
  simp [Vector.getD, Fin.getElem_fin]

/-- The snapshot holds at each offset what a read of it gives. -/
theorem Memory.snapshot_get (m : Memory) (k : Offset) : m.snapshot[k] = m.read k.val := by
  fin_cases k <;> rfl

/-- The XOR below `n` does not see a write at `n` or above. -/
theorem Memory.xorBelow_write (m : Memory) (a : Nat) (v : Byte) (h : m.wf = true) :
    ∀ n, n ≤ a → (m.write a v).xorBelow n = m.xorBelow n
  | 0, _ => rfl
  | n + 1, hn => by
    rw [Memory.xorBelow, Memory.xorBelow, Memory.xorBelow_write m a v h n (by omega), Memory.read_write_wf m a v n h,
      if_neg (by omega)]

/-- The XOR of one more byte, just written. -/
theorem Memory.xorBelow_succ_write (m : Memory) (a : Nat) (v : Byte) (h : m.wf = true) :
    (m.write a v).xorBelow (a + 1) = m.xorBelow a ^^^ v := by
  rw [Memory.xorBelow, Memory.xorBelow_write m a v h a (le_refl _), Memory.read_write_wf m a v a h, if_pos rfl]

end Sys2Proof.Machine
end

