-- ==== Sys2Proof/Laws/State.lean ====
section
/-! SUPPORT. What each update of the block and of a run leaves in each field, true by rfl. A run's block is one field of it
(`toBlock`), so one lemma per update of a run says all seven elements. -/

namespace Sys2Proof.Machine

variable (b : Block) (s : State) (c : Config)

@[simp] theorem Block.store_raw (k : Offset) (v : Byte) : (b.store k v).raw = b.raw.write k.val v := rfl
@[simp] theorem Block.store_cursor (k : Offset) (v : Byte) : (b.store k v).cursor = b.cursor := rfl
@[simp] theorem Block.store_acc (k : Offset) (v : Byte) : (b.store k v).acc = b.acc := rfl
@[simp] theorem Block.store_frameOk (k : Offset) (v : Byte) : (b.store k v).frameOk = b.frameOk := rfl
@[simp] theorem Block.store_synced (k : Offset) (v : Byte) : (b.store k v).synced = b.synced := rfl
@[simp] theorem Block.store_err (k : Offset) (v : Byte) : (b.store k v).err = b.err := rfl
@[simp] theorem Block.store_lastTs (k : Offset) (v : Byte) : (b.store k v).lastTs = b.lastTs := rfl

@[simp] theorem Block.clearAcc_raw : b.clearAcc.raw = b.raw := rfl
@[simp] theorem Block.clearAcc_cursor : b.clearAcc.cursor = b.cursor := rfl
@[simp] theorem Block.clearAcc_acc : b.clearAcc.acc = 0x00#8 := rfl
@[simp] theorem Block.clearAcc_frameOk : b.clearAcc.frameOk = b.frameOk := rfl
@[simp] theorem Block.clearAcc_synced : b.clearAcc.synced = b.synced := rfl
@[simp] theorem Block.clearAcc_err : b.clearAcc.err = b.err := rfl
@[simp] theorem Block.clearAcc_lastTs : b.clearAcc.lastTs = b.lastTs := rfl

@[simp] theorem Block.updateTs_raw (now : Nat) : (b.updateTs c now).raw = b.raw := rfl
@[simp] theorem Block.updateTs_cursor (now : Nat) : (b.updateTs c now).cursor = b.cursor := rfl
@[simp] theorem Block.updateTs_acc (now : Nat) : (b.updateTs c now).acc = b.acc := rfl
@[simp] theorem Block.updateTs_frameOk (now : Nat) : (b.updateTs c now).frameOk = b.frameOk := rfl
@[simp] theorem Block.updateTs_synced (now : Nat) : (b.updateTs c now).synced = b.synced := rfl
@[simp] theorem Block.updateTs_err (now : Nat) : (b.updateTs c now).err = b.err := rfl
@[simp] theorem Block.updateTs_lastTs (now : Nat) : (b.updateTs c now).lastTs = stamp c now := rfl

@[simp] theorem Block.markInvalid_raw (e : PendingErr) : (b.markInvalid e).raw = b.raw := rfl
@[simp] theorem Block.markInvalid_cursor (e : PendingErr) : (b.markInvalid e).cursor = b.cursor := rfl
@[simp] theorem Block.markInvalid_acc (e : PendingErr) : (b.markInvalid e).acc = b.acc := rfl
@[simp] theorem Block.markInvalid_frameOk (e : PendingErr) : (b.markInvalid e).frameOk = false := rfl
@[simp] theorem Block.markInvalid_synced (e : PendingErr) : (b.markInvalid e).synced = b.synced := rfl
@[simp] theorem Block.markInvalid_err (e : PendingErr) : (b.markInvalid e).err = e := rfl
@[simp] theorem Block.markInvalid_lastTs (e : PendingErr) : (b.markInvalid e).lastTs = b.lastTs := rfl

@[simp] theorem Block.epilogue_raw (now : Nat) : (b.epilogue c now).raw = b.raw := rfl
@[simp] theorem Block.epilogue_cursor (now : Nat) : (b.epilogue c now).cursor = 0 := rfl
@[simp] theorem Block.epilogue_acc (now : Nat) : (b.epilogue c now).acc = 0x00#8 := rfl
@[simp] theorem Block.epilogue_frameOk (now : Nat) : (b.epilogue c now).frameOk = true := rfl
@[simp] theorem Block.epilogue_synced (now : Nat) : (b.epilogue c now).synced = b.synced := rfl
@[simp] theorem Block.epilogue_err (now : Nat) : (b.epilogue c now).err = PendingErr.none := rfl
@[simp] theorem Block.epilogue_lastTs (now : Nat) : (b.epilogue c now).lastTs = stamp c now := rfl

@[simp] theorem Block.reset_raw (now : Nat) : (Block.reset c now).raw = Memory.ofFrame c.rawInit := rfl
@[simp] theorem Block.reset_cursor (now : Nat) : (Block.reset c now).cursor = 0 := rfl
@[simp] theorem Block.reset_acc (now : Nat) : (Block.reset c now).acc = 0x00#8 := rfl
@[simp] theorem Block.reset_frameOk (now : Nat) : (Block.reset c now).frameOk = true := rfl
@[simp] theorem Block.reset_synced (now : Nat) : (Block.reset c now).synced = false := rfl
@[simp] theorem Block.reset_err (now : Nat) : (Block.reset c now).err = PendingErr.none := rfl
@[simp] theorem Block.reset_lastTs (now : Nat) : (Block.reset c now).lastTs = stamp c now := rfl

@[simp] theorem Block.silent_fst : b.silent.1 = b := rfl
@[simp] theorem Block.silent_snd : b.silent.2 = FrameEvent.none := rfl
@[simp] theorem Block.reject_fst (r : Reason) (now : Nat) : (b.reject c r now).1 = b.epilogue c now := rfl
@[simp] theorem Block.reject_snd (r : Reason) (now : Nat) : (b.reject c r now).2 = FrameEvent.rejected ⟨r, b.raw.snapshot⟩ := rfl
@[simp] theorem Block.accept_fst (now : Nat) : (b.accept c now).1 = b.epilogue c now := rfl
@[simp] theorem Block.accept_snd (now : Nat) : (b.accept c now).2 = FrameEvent.decoded (b.decodedFrame c now) := rfl

@[simp] theorem State.put_toBlock (r : Result) : (s.put r).toBlock = r.1 := rfl
@[simp] theorem State.put_config (r : Result) : (s.put r).config = s.config := rfl
@[simp] theorem State.put_event (r : Result) : (s.put r).event = r.2 := rfl
@[simp] theorem State.put_value (r : Result) : (s.put r).value = SubValue.none := rfl
@[simp] theorem State.put_stimulus (r : Result) : (s.put r).stimulus = s.stimulus := rfl

@[simp] theorem State.report_toBlock (v : SubValue) : (s.report v).toBlock = s.toBlock := rfl
@[simp] theorem State.report_config (v : SubValue) : (s.report v).config = s.config := rfl
@[simp] theorem State.report_event (v : SubValue) : (s.report v).event = FrameEvent.none := rfl
@[simp] theorem State.report_value (v : SubValue) : (s.report v).value = v := rfl
@[simp] theorem State.report_stimulus (v : SubValue) : (s.report v).stimulus = s.stimulus := rfl

@[simp] theorem State.takeInput_toBlock : s.takeInput.toBlock = s.toBlock := rfl
@[simp] theorem State.takeInput_config : s.takeInput.config = s.config := rfl
@[simp] theorem State.takeInput_event : s.takeInput.event = s.event := rfl
@[simp] theorem State.takeInput_value : s.takeInput.value = s.value := rfl
@[simp] theorem State.takeInput_stimulus : s.takeInput.stimulus = s.stimulus.tail := rfl

end Sys2Proof.Machine
end

