-- ==== Sys2Proof/Laws/Ops.lean ====
section
/-! SUPPORT. What each shared operation of the block can do, said once: the check, the end-of-frame decision, and every case of a
feed step. -/

namespace Sys2Proof.Machine

/-- The check of position `k` fails on `b` (R72 to R74). -/
def Block.failsAt (s : Block) (k : Offset) (b : Byte) : Bool :=
  (decide (k.val = 0) && decide (b ≠ 0x01#8)) || (decide (k.val = 1) && decide (b ≠ 0x03#8)) ||
    (decide (k.val = 2) && !s.synced && decide (b ≠ 0x02#8))

/-- The reason a failing check of position `k` records (R150). -/
def failReason (k : Offset) : PendingErr := if k.val = 2 then .unexpectedInitialSequence else .prefixMismatch

/-- The rejection reason that reports a failing check of position `k`. -/
def failReport (k : Offset) : Reason := if k.val = 2 then .unexpectedInitialSequence else .prefixMismatch

theorem Block.check_of_invalid (s : Block) (k : Offset) (b : Byte) (h : s.frameOk = false) : s.check k b = s := by
  simp [Block.check, h]

theorem Block.check_of_fails (s : Block) (k : Offset) (b : Byte) (h : s.frameOk = true) (hf : s.failsAt k b = true) :
    s.check k b = s.markInvalid (failReason k) := by
  unfold Block.check
  rw [if_pos h]
  have h1 : Config.magic0 = 0x01#8 := rfl
  have h2 : Config.magic1 = 0x03#8 := rfl
  have h3 : Config.initSeq = 0x02#8 := rfl
  fin_cases k <;> simp_all [Block.failsAt, failReason]

theorem Block.check_of_passes (s : Block) (k : Offset) (b : Byte) (h : s.frameOk = true) (hf : s.failsAt k b = false) :
    s.check k b = { s with synced := s.synced || decide (k.val = 2) } := by
  unfold Block.check
  rw [if_pos h]
  have h1 : Config.magic0 = 0x01#8 := rfl
  have h2 : Config.magic1 = 0x03#8 := rfl
  have h3 : Config.initSeq = 0x02#8 := rfl
  obtain ⟨raw, cursor, acc, frameOk, synced, err, lastTs⟩ := s
  fin_cases k <;> cases synced <;> simp_all [Block.failsAt]

/-- Everything the end-of-frame decision can do (R111). -/
theorem Block.endOfFrame_cases (s : Block) (c : Config) (now : Nat) :
    (s.frameOk = false ∧ s.err = .prefixMismatch ∧ s.endOfFrame c now = s.reject c .prefixMismatch now) ∨
    (s.frameOk = false ∧ s.err = .unexpectedInitialSequence ∧
      s.endOfFrame c now = s.reject c .unexpectedInitialSequence now) ∨
    (¬ (s.frameOk = false ∧ s.err ≠ .none) ∧ s.csumOk = false ∧ s.endOfFrame c now = s.reject c .checksumMismatch now) ∨
    (¬ (s.frameOk = false ∧ s.err ≠ .none) ∧ s.csumOk = true ∧ s.endOfFrame c now = s.accept c now) := by
  unfold Block.endOfFrame
  cases hf : s.frameOk <;> cases he : s.err <;> cases hc : s.csumOk <;> simp

/-- What end of frame leaves whatever the outcome: the epilogue, and an event (R116, R117). -/
theorem Block.endOfFrame_epilogue (s : Block) (c : Config) (now : Nat) :
    ∃ ev, ev ≠ .none ∧ s.endOfFrame c now = (s.epilogue c now, ev) := by
  rcases s.endOfFrame_cases c now with ⟨-, -, h⟩ | ⟨-, -, h⟩ | ⟨-, -, h⟩ | ⟨-, -, h⟩
  · exact ⟨.rejected ⟨.prefixMismatch, s.raw.snapshot⟩, by simp, h⟩
  · exact ⟨.rejected ⟨.unexpectedInitialSequence, s.raw.snapshot⟩, by simp, h⟩
  · exact ⟨.rejected ⟨.checksumMismatch, s.raw.snapshot⟩, by simp, h⟩
  · exact ⟨.decoded (s.decodedFrame c now), by simp, h⟩

theorem Block.endOfFrame_valid (s : Block) (c : Config) (now : Nat) (h : s.frameOk = true) :
    s.endOfFrame c now = if s.csumOk then s.accept c now else s.reject c .checksumMismatch now := by
  unfold Block.endOfFrame
  cases hc : s.csumOk <;> simp [h]

theorem Offset.le_csumLast : ∀ k : Offset, k ≠ 14 → k ≤ Config.csumLast := by decide

/-- A byte that passes its check, before offset 14: stored, accumulated, the cursor advanced (R72 to R85). -/
theorem Block.feedAt_passes (s : Block) (c : Config) (k : Offset) (b : Byte) (now : Nat) (h : s.frameOk = true)
    (hf : s.failsAt k b = false) (hk : k ≠ 14) :
    s.feedAt c k b now =
      ({ s with
        raw := s.raw.write k.val b
        acc := s.acc ^^^ b
        cursor := k + 1
        synced := s.synced || decide (k.val = 2) }, .none) := by
  have hf' : (s.store k b).failsAt k b = false := hf
  have hle : k ≤ Config.csumLast := Offset.le_csumLast k hk
  have hne : k ≠ Config.csumPos := hk
  rw [Block.feedAt, Block.check_of_passes _ _ _ (show (s.store k b).frameOk = true from h) hf']
  simp [Block.accumulate, Block.advance, Block.completes, Block.silent, Block.store, h, hle, hne]

/-- A byte that fails its check under TERMINATE: the frame is rejected at once (R72 to R74, R110). -/
theorem Block.feedAt_fails_terminate (s : Block) (c : Config) (k : Offset) (b : Byte) (now : Nat) (h : s.frameOk = true)
    (hf : s.failsAt k b = true) (hp : c.policy = .terminate) :
    s.feedAt c k b now = (s.store k b).reject c (failReport k) now := by
  have hf' : (s.store k b).failsAt k b = true := hf
  rw [Block.feedAt, Block.check_of_fails _ _ _ (show (s.store k b).frameOk = true from h) hf']
  have ha : ((s.store k b).markInvalid (failReason k)).accumulate k b = (s.store k b).markInvalid (failReason k) := by
    simp [Block.accumulate]
  rw [ha]
  by_cases h2 : k.val = 2 <;>
    simp [Block.advance, Block.completes, hp, Block.endOfFrame, failReason, failReport, h2, Block.reject, Block.epilogue,
      Block.updateTs, Block.clearAcc, Block.markInvalid, Block.store]

/-- A byte that fails its check under COLLECT: the frame goes on, marked invalid (R89 (a)). -/
theorem Block.feedAt_fails_collect (s : Block) (c : Config) (k : Offset) (b : Byte) (now : Nat) (h : s.frameOk = true)
    (hf : s.failsAt k b = true) (hp : c.policy = .collect) :
    s.feedAt c k b now =
      ({ s with raw := s.raw.write k.val b, cursor := k + 1, frameOk := false, err := failReason k }, .none) := by
  have hf' : (s.store k b).failsAt k b = true := hf
  have hk : k ≠ Config.csumPos := by
    rintro rfl
    simp [Block.failsAt, Config.csumPos] at hf
  rw [Block.feedAt, Block.check_of_fails _ _ _ (show (s.store k b).frameOk = true from h) hf']
  simp [Block.accumulate, Block.advance, Block.completes, hp, hk, Block.markInvalid, Block.store, Block.silent]

/-- A byte of an invalid frame under COLLECT, before offset 14 (R89 (b), (c), (d)). -/
theorem Block.feedAt_invalid_collect (s : Block) (c : Config) (k : Offset) (b : Byte) (now : Nat) (h : s.frameOk = false)
    (hp : c.policy = .collect) (hk : k ≠ 14) :
    s.feedAt c k b now = ({ s with raw := s.raw.write k.val b, cursor := k + 1 }, .none) := by
  have hne : k ≠ Config.csumPos := hk
  rw [Block.feedAt, Block.check_of_invalid _ _ _ (show (s.store k b).frameOk = false from h)]
  simp [Block.accumulate, Block.advance, Block.completes, h, hp, hne, Block.store, Block.silent]

/-- A byte of an invalid frame under TERMINATE, in a state no run reaches (R70 sub-step 4). -/
theorem Block.feedAt_invalid_terminate (s : Block) (c : Config) (k : Offset) (b : Byte) (now : Nat) (h : s.frameOk = false)
    (hp : c.policy = .terminate) : s.feedAt c k b now = (s.store k b).endOfFrame c now := by
  rw [Block.feedAt, Block.check_of_invalid _ _ _ (show (s.store k b).frameOk = false from h)]
  simp [Block.accumulate, Block.advance, Block.completes, h, hp]

/-- The fifteenth byte (R86, R89 (e)). -/
theorem Block.feedAt_csum (s : Block) (c : Config) (b : Byte) (now : Nat) :
    s.feedAt c 14 b now = (s.store 14 b).endOfFrame c now := by
  have h1 : (s.store 14 b).check 14 b = s.store 14 b := by simp [Block.check]
  simp [Block.feedAt, h1, Block.accumulate, Block.advance, Block.completes, Config.csumPos, Config.csumLast]

/-- Everything a feed step can do: it ends the frame, or advances with or without a failed check. -/
theorem Block.feedAt_cases (s : Block) (c : Config) (k : Offset) (b : Byte) (now : Nat) :
    (k ≠ 14 ∧ s.frameOk = true ∧ s.failsAt k b = false ∧ s.feedAt c k b now =
      ({ s with
        raw := s.raw.write k.val b
        acc := s.acc ^^^ b
        cursor := k + 1
        synced := s.synced || decide (k.val = 2) }, .none)) ∨
    (k ≠ 14 ∧ s.frameOk = true ∧ s.failsAt k b = true ∧ c.policy = .terminate ∧
      s.feedAt c k b now = (s.store k b).reject c (failReport k) now) ∨
    (k ≠ 14 ∧ s.frameOk = true ∧ s.failsAt k b = true ∧ c.policy = .collect ∧ s.feedAt c k b now =
      ({ s with raw := s.raw.write k.val b, cursor := k + 1, frameOk := false, err := failReason k }, .none)) ∨
    (k ≠ 14 ∧ s.frameOk = false ∧ c.policy = .collect ∧ s.feedAt c k b now =
      ({ s with raw := s.raw.write k.val b, cursor := k + 1 }, .none)) ∨
    ((k = 14 ∨ s.frameOk = false ∧ c.policy = .terminate) ∧ s.feedAt c k b now = (s.store k b).endOfFrame c now) := by
  by_cases hk : k = 14
  · subst hk
    exact .inr (.inr (.inr (.inr ⟨.inl rfl, s.feedAt_csum c b now⟩)))
  · by_cases hf : s.frameOk = true
    · by_cases hc : s.failsAt k b = true
      · rcases hp : c.policy with _ | _
        · exact .inr (.inl ⟨hk, hf, hc, rfl, s.feedAt_fails_terminate c k b now hf hc hp⟩)
        · exact .inr (.inr (.inl ⟨hk, hf, hc, rfl, s.feedAt_fails_collect c k b now hf hc hp⟩))
      · exact .inl ⟨hk, hf, by simpa using hc, s.feedAt_passes c k b now hf (by simpa using hc) hk⟩
    · rw [Bool.not_eq_true] at hf
      rcases hp : c.policy with _ | _
      · exact .inr (.inr (.inr (.inr ⟨.inr ⟨hf, rfl⟩, s.feedAt_invalid_terminate c k b now hf hp⟩)))
      · exact .inr (.inr (.inr (.inl ⟨hk, hf, rfl, s.feedAt_invalid_collect c k b now hf hp hk⟩)))

@[simp] theorem Block.endOfFrame_raw (s : Block) (c : Config) (now : Nat) : (s.endOfFrame c now).1.raw = s.raw := by
  obtain ⟨ev, -, h⟩ := s.endOfFrame_epilogue c now; rw [h]; rfl

/-- A feed step stores its byte and writes no other. -/
theorem Block.feedAt_raw (s : Block) (c : Config) (k : Offset) (b : Byte) (now : Nat) :
    (s.feedAt c k b now).1.raw = s.raw.write k.val b := by
  rcases s.feedAt_cases c k b now with ⟨-, -, -, h⟩ | ⟨-, -, -, -, h⟩ | ⟨-, -, -, -, h⟩ | ⟨-, -, -, h⟩ | ⟨-, h⟩ <;>
    rw [h] <;> simp

/-- The interval is the difference of the timestamps modulo 2^w (R141). -/
theorem intervalOf_eq_emod (w now last : Nat) : (intervalOf w now last : Int) = ((now : Int) - last) % 2 ^ w := by
  have hp : 0 < 2 ^ w := Nat.two_pow_pos w
  have hl : last % 2 ^ w < 2 ^ w := Nat.mod_lt _ hp
  unfold intervalOf
  have h2 : ((2 ^ w : Nat) : Int) = 2 ^ w := by push_cast; rfl
  rw [Int.natCast_emod, h2, Int.natCast_add, Int.natCast_sub hl.le, Int.natCast_emod, h2, ← Int.add_sub_assoc, add_sub_right_comm]
  simp [Int.sub_emod]

/-- What RawFrame reads as after a store. -/
theorem Block.store_rawAt (s : Block) (k a : Offset) (b : Byte) (hw : s.raw.wf = true) :
    (s.store k b).rawAt a = if a = k then b else s.rawAt a := by
  rw [Block.rawAt, Block.store_raw, Memory.read_write_wf _ _ _ _ hw]
  simp [Fin.ext_iff, Block.rawAt]

/-- What RawFrame reads as after a feed step (20_memory.md R35). -/
theorem Block.feedAt_rawAt (s : Block) (c : Config) (k : Offset) (b : Byte) (now : Nat) (a : Offset) (hw : s.raw.wf = true) :
    (s.feedAt c k b now).1.rawAt a = if a = k then b else s.rawAt a := by
  rw [Block.rawAt, Block.feedAt_raw]
  exact Block.store_rawAt s k a b hw

/-- The checksum test in the words of R102. -/
theorem Block.csumOk_eq (s : Block) : s.csumOk = decide (s.acc ≠ 0x00#8 ∧ s.acc = s.rawAt 14) := by
  simp [Block.csumOk, Config.csumPos, bne, beq_eq_decide]

/-- The checksum test right after byte 14 is stored (R86). -/
theorem Block.csumOk_store (s : Block) (b : Byte) (hw : s.raw.wf = true) :
    (s.store 14 b).csumOk = decide (s.acc ≠ 0x00#8 ∧ s.acc = b) := by
  rw [Block.csumOk_eq, Block.store_rawAt s 14 14 b hw]
  simp

theorem bitOf_eq_getLsbD (v : Byte) (i : Nat) (h : i < 8) : bitOf v i = v.getLsbD i := by
  have all : ∀ (v : Byte) (i : Fin 8), bitOf v i = v.getLsbD i := by decide +kernel
  exact all v ⟨i, h⟩

/-- The `DecodedFrame` by offsets and bits (R126, R127). -/
theorem Block.decodedFrame_eq (s : Block) (c : Config) (now : Nat) :
    s.decodedFrame c now =
      { sequenceNumber := s.rawAt 2, entropyKey := s.rawAt 5, powerSetting := s.rawAt 7, configFlags := s.rawAt 9,
        brakingLevel := s.rawAt 10, pedalAssist := (s.rawAt 6).getLsbD 1, cruiseControl := (s.rawAt 6).getLsbD 2,
        softStart := (s.rawAt 6).getLsbD 3, interval := intervalOf c.tsWidth now s.lastTs } := by
  simp [Block.decodedFrame, Block.byteFields, Block.flagFields, Config.posSeq, Config.posEntropy, Config.posPower,
    Config.posConfig, Config.posBrake, Config.posFlags, Config.bitPas, Config.bitCruise, Config.bitSoft, bitOf_eq_getLsbD,
    Block.interval]

theorem Offset.succ_val : ∀ k : Offset, k ≠ 14 → (k + 1).val = k.val + 1 := by decide

theorem stamp_lt (c : Config) (now : Nat) : stamp c now < 2 ^ c.tsWidth := Nat.mod_lt _ (Nat.two_pow_pos _)

end Sys2Proof.Machine
end

