-- ==== Sys2Proof/Laws/Step.lean ====
section
/-! SUPPORT. A step of a run is the step of the block on the input taken; runs of bytes; steps with an event. -/

namespace Sys2Proof.Machine

theorem exec_feedInstr (k : Offset) (b : Byte) (now : Nat) (s : State) :
    exec (feedInstr k b now) s = .next (s.put (s.feedAt s.config k b now)) := by
  fin_cases k <;> rfl

theorem decodeSel6_reset (v : Bool) (k : Offset) (b : Byte) (now : Nat) :
    decodeSel6 (selector true v k) b now = .reset now := by
  cases v <;> fin_cases k <;> rfl

theorem decodeSel6_idle (k : Offset) (b : Byte) (now : Nat) : decodeSel6 (selector false false k) b now = .idle := by
  fin_cases k <;> rfl

theorem decodeSel6_feed (k : Offset) (b : Byte) (now : Nat) :
    decodeSel6 (selector false true k) b now = feedInstr k b now := by
  fin_cases k <;> rfl

/-- Everything a step can do: the block's step on the next input, which is taken (R57, R70, R71, R175). -/
theorem step_eq (s : State) : step s = .next (s.takeInput.put (s.toBlock.step s.config s.nextInput)) := by
  unfold step State.nextInstr Block.step
  cases s.nextInput.rst
  · cases s.nextInput.inValid
    · rw [decodeSel6_idle]; rfl
    · rw [decodeSel6_feed, exec_feedInstr]; rfl
  · rw [decodeSel6_reset]; rfl

theorem Block.step_feed (s : Block) (c : Config) (b : Byte) (now : Nat) : s.step c (Stimulus.feed b now) = s.feed c b now := rfl

/-- A step on a byte is `feed`. -/
theorem step_feed (s : State) (b : Byte) (now : Nat) (rest : List Stimulus) (h : s.stimulus = Stimulus.feed b now :: rest) :
    step s = .next ({ s with stimulus := rest }.feed b now) := by
  have hx : s.nextInput = Stimulus.feed b now := by rw [State.nextInput, h]; rfl
  rw [step_eq, hx, Block.step_feed, State.takeInput, h]
  rfl

theorem State.feedAll_stimulus (s : State) (l : List (Byte × Nat)) : (s.feedAll l).stimulus = s.stimulus := by
  induction l generalizing s with
  | nil => rfl
  | cons x l ih => rw [State.feedAll, ih]; rfl

theorem State.feedAll_config (s : State) (l : List (Byte × Nat)) : (s.feedAll l).config = s.config := by
  induction l generalizing s with
  | nil => rfl
  | cons x l ih => rw [State.feedAll, ih]; rfl

/-- A run over bytes is the fold of `feed` over them. -/
theorem run_feeds (s : State) (l : List (Byte × Nat)) (rest : List Stimulus) :
    core.run l.length { s with stimulus := l.map (fun x => Stimulus.feed x.1 x.2) ++ rest } =
      .next ({ s with stimulus := rest }.feedAll l) := by
  induction l generalizing s with
  | nil => rfl
  | cons x l ih =>
    obtain ⟨b, now⟩ := x
    have h : step { s with stimulus := ((b, now) :: l).map (fun x => Stimulus.feed x.1 x.2) ++ rest } =
        .next { s.feed b now with stimulus := l.map (fun x => Stimulus.feed x.1 x.2) ++ rest } :=
      step_feed { s with stimulus := ((b, now) :: l).map (fun x => Stimulus.feed x.1 x.2) ++ rest } b now _ rfl
    have hc : core.step = step := rfl
    simp only [List.length_cons, Host.Core.run, hc, h]
    exact ih (s.feed b now)

theorem Block.failsAt_iff (s : State) (b : Byte) : s.failsAt s.cursor b = true ↔ s.FailsCheck b := by
  simp [Block.failsAt, State.FailsCheck, or_assoc, and_assoc]

/-- A step of the block with an event is a feed step that ends the frame (R117): by a failed check, or by end-of-frame
processing. -/
theorem Block.step_event (s : Block) (c : Config) (x : Stimulus) (he : (s.step c x).2 ≠ .none) :
    x.rst = false ∧ x.inValid = true ∧
      ((s.cursor ≠ 14 ∧ s.frameOk = true ∧ s.failsAt s.cursor x.data = true ∧ c.policy = .terminate ∧
          s.step c x = (s.store s.cursor x.data).reject c (failReport s.cursor) x.now) ∨
        ((s.cursor = 14 ∨ s.frameOk = false ∧ c.policy = .terminate) ∧
          s.step c x = (s.store s.cursor x.data).endOfFrame c x.now)) := by
  cases hr : x.rst
  · cases hv : x.inValid
    · simp [Block.step, hr, hv] at he
    · have hs : s.step c x = s.feedAt c s.cursor x.data x.now := by simp [Block.step, hr, hv, Block.feed]
      rw [hs] at he ⊢
      refine ⟨rfl, rfl, ?_⟩
      rcases s.feedAt_cases c s.cursor x.data x.now with
        ⟨-, -, -, h⟩ | ⟨hk, hf, hc, hp, h⟩ | ⟨-, -, -, -, h⟩ | ⟨-, -, -, h⟩ | ⟨hk, h⟩
      · rw [h] at he; simp at he
      · exact .inl ⟨hk, hf, hc, hp, h⟩
      · rw [h] at he; simp at he
      · rw [h] at he; simp at he
      · exact .inr ⟨hk, h⟩
  · simp [Block.step, hr] at he

/-- The same of a run. -/
theorem step_event (s t : State) (h : step s = .next t) (he : t.event ≠ .none) :
    s.nextInput.rst = false ∧ s.nextInput.inValid = true ∧
    ∃ u : Block, u = s.store s.cursor s.nextInput.data ∧
      ((s.cursor ≠ 14 ∧ s.frameOk = true ∧ s.failsAt s.cursor s.nextInput.data = true ∧ s.config.policy = .terminate ∧
          t = s.takeInput.put (u.reject s.config (failReport s.cursor) s.nextInput.now)) ∨
        ((s.cursor = 14 ∨ s.frameOk = false ∧ s.config.policy = .terminate) ∧
          t = s.takeInput.put (u.endOfFrame s.config s.nextInput.now))) := by
  rw [step_eq] at h
  obtain rfl := Host.Outcome.next.inj h
  obtain ⟨hr, hv, hx⟩ := s.toBlock.step_event s.config s.nextInput he
  refine ⟨hr, hv, _, rfl, ?_⟩
  rcases hx with ⟨h1, h2, h3, h4, h5⟩ | ⟨h1, h5⟩
  · exact .inl ⟨h1, h2, h3, h4, by rw [h5]⟩
  · exact .inr ⟨h1, by rw [h5]⟩

end Sys2Proof.Machine
end

