-- ==== Sys2Proof/Laws/Frames.lean ====
section
/-! SUPPORT. A frame in progress: what `n` bytes that pass their checks leave, from the start of a frame (10_state.md R21,
30_encoding.md R62). -/

namespace Sys2Proof.Machine

/-- The state after the first `n` bytes of `g`, byte `k` fed at `time k`. -/
def State.fed (s : State) (g : Nat → Byte) (time : Nat → Nat) : Nat → State
  | 0 => s
  | n + 1 => (s.fed g time n).feed (g n) (time n)

/-- The first `n` bytes of `g` pass their checks. -/
def State.Passes (s : State) (g : Nat → Byte) (n : Nat) : Prop :=
  (0 < n → g 0 = 0x01#8) ∧ (1 < n → g 1 = 0x03#8) ∧ (2 < n → s.synced = true ∨ g 2 = 0x02#8)

/-- What `n` bytes of `g` leave in `u`, from the frame start `s`, when they pass. -/
structure InProgress (s u : State) (g : Nat → Byte) (n : Nat) : Prop where
  cursor : u.cursor.val = n
  frameOk : u.frameOk = true
  rawWf : u.raw.wf = true
  acc : u.acc = u.raw.xorBelow n
  bytes : ∀ k : Offset, k.val < n → u.rawAt k = g k.val
  lastTs : u.lastTs = s.lastTs
  config : u.config = s.config
  synced : u.synced = (s.synced || decide (3 ≤ n))
  event : 0 < n → u.event = .none

theorem InProgress.feed {s u : State} {g : Nat → Byte} {n : Nat} (now : Nat) (hn : n < 14) (hg : InProgress s u g n)
    (hp : s.Passes g (n + 1)) : InProgress s (u.feed (g n) now) g (n + 1) := by
  have hcur := hg.cursor
  have h14 : u.cursor ≠ 14 := by intro h; rw [h] at hcur; simp at hcur; omega
  have hsucc := Offset.succ_val _ h14
  have hf : u.failsAt u.cursor (g n) = false := by
    have hsy := hg.synced
    obtain ⟨h0, h1, h2⟩ := hp
    simp only [Block.failsAt, hcur, hsy]
    rcases n with _ | _ | _ | n
    · simpa using h0
    · simpa using h1
    · have h2 := h2 (by omega)
      simp only [zero_add, Nat.reduceAdd] at h2 ⊢
      rcases h2 with h2 | h2 <;> simp [h2]
    · simp
  have hraw := fun a => u.feedAt_rawAt u.config u.cursor (g n) now a hg.rawWf
  have h := u.feedAt_passes u.config u.cursor (g n) now hg.frameOk hf h14
  have hfeed : u.feed (g n) now = u.put (u.feedAt u.config u.cursor (g n) now) := rfl
  have hw : u.raw.write u.cursor.val (g n) = u.raw.write n (g n) := by rw [hcur]
  constructor
  · rw [hfeed, h]; exact hsucc.trans (by rw [hcur])
  · rw [hfeed, h]; exact hg.frameOk
  · rw [hfeed, h]; exact Memory.wf_write _ _ _ hg.rawWf
  · rw [hfeed, h]; simp only [State.put_toBlock]; rw [hw, Memory.xorBelow_succ_write _ _ _ hg.rawWf, hg.acc]
  · intro k hk
    rw [hfeed, State.put_toBlock, hraw]
    split_ifs with e
    · rw [e, hcur]
    · have : k.val ≠ u.cursor.val := fun h => e (Fin.ext h)
      exact hg.bytes k (by omega)
  · rw [hfeed, h]; exact hg.lastTs
  · rw [hfeed, h]; exact hg.config
  · rw [hfeed, h]; simp only [State.put_toBlock]; rw [hg.synced, hcur]
    by_cases e : n = 2
    · simp [e]
    · simp [e, show (3 ≤ n) ↔ (3 ≤ n + 1) by omega]
  · intro _; rw [hfeed, h]; rfl

/-- Up to fourteen bytes that pass their checks, from the start of a frame. -/
theorem State.fed_inProgress (s : State) (g : Nat → Byte) (time : Nat → Nat) (ha : s.AtFrameStart) (hw : s.raw.wf = true) :
    ∀ n, n ≤ 14 → s.Passes g n → InProgress s (s.fed g time n) g n
  | 0, _, _ => ⟨ha.cursor, ha.frameOk, hw, ha.acc, fun k hk => absurd hk (by omega), rfl, rfl, by simp [State.fed], by omega⟩
  | n + 1, hn, hp =>
    (s.fed_inProgress g time ha hw n (by omega)
      ⟨fun _ => hp.1 (by omega), fun _ => hp.2.1 (by omega), fun _ => hp.2.2 (by omega)⟩).feed _ (by omega) hp

/-- `fed` is a fold of `feed`. -/
theorem State.feedAll_eq_fed (s : State) (g : Nat → Byte) (time : Nat → Nat) (n : Nat) :
    s.feedAll ((List.range n).map fun k => (g k, time k)) = s.fed g time n := by
  have app : ∀ (l m : List (Byte × Nat)) (u : State), u.feedAll (l ++ m) = (u.feedAll l).feedAll m := by
    intro l
    induction l with
    | nil => intros; rfl
    | cons x l ih => intro m u; exact ih m _
  induction n with
  | zero => rfl
  | succ n ih => rw [List.range_succ, List.map_append, app, ih]; rfl

end Sys2Proof.Machine
end

