-- ==== Sys2Proof/Laws/PerInstr.lean ====
section
/-! SUPPORT. The family EncodeInRow: the encoding of every operation belongs to its row of spec/opcode_table.json. -/

namespace Sys2Proof.Laws.EncodeInRow

/-- The encoded word of `i` has the format of its row and, under the row's mask, the row's match. -/
def Statement (i : Instr) : Prop := (encode i).inRow i.row

/-- The mask of the FRAME row keeps the upper sixteen bits. -/
theorem and_upper (hi lo : Nat) (h : lo < 2 ^ 104) (hh : hi < 2 ^ 16) :
    (hi * 2 ^ 104 + lo) &&& (0xFFFF * 2 ^ 104) = hi * 2 ^ 104 := by
  have h1 : hi * 2 ^ 104 + lo = 2 ^ 104 * hi ||| lo := by
    rw [mul_comm]; exact Nat.two_pow_add_eq_or_of_lt h hi
  have h2 : (0xFFFF : Nat) = 2 ^ 16 - 1 := by norm_num
  apply Nat.eq_of_testBit_eq
  intro n
  rw [h1, Nat.testBit_and, Nat.testBit_or, mul_comm 65535, mul_comm hi, Nat.testBit_two_pow_mul, Nat.testBit_two_pow_mul,
    h2, Nat.testBit_two_pow_sub_one]
  by_cases hn : 104 ≤ n
  · have hl : lo.testBit n = false := Nat.testBit_lt_two_pow (lt_of_lt_of_le h (Nat.pow_le_pow_right (by omega) hn))
    by_cases hm : n - 104 < 16
    · simp [hn, hl, hm]
    · have hz : hi.testBit (n - 104) = false :=
        Nat.testBit_lt_two_pow (lt_of_lt_of_le hh (Nat.pow_le_pow_right (by omega) (by omega)))
      simp [hl, hz]
  · simp [hn]

theorem reset (now : Nat) : Statement (.reset now) := ⟨rfl, by simp [encode, Code.word, Instr.row]⟩

theorem idle : Statement .idle := ⟨rfl, by decide⟩

theorem feedP0 (b : Byte) (now : Nat) : Statement (.feedP0 b now) := ⟨rfl, by simp [encode, Code.word, Instr.row]⟩

theorem feedP1 (b : Byte) (now : Nat) : Statement (.feedP1 b now) := ⟨rfl, by simp [encode, Code.word, Instr.row]⟩

theorem feedP2 (b : Byte) (now : Nat) : Statement (.feedP2 b now) := ⟨rfl, by simp [encode, Code.word, Instr.row]⟩

theorem feedP3 (b : Byte) (now : Nat) : Statement (.feedP3 b now) := ⟨rfl, by simp [encode, Code.word, Instr.row]⟩

theorem feedP4 (b : Byte) (now : Nat) : Statement (.feedP4 b now) := ⟨rfl, by simp [encode, Code.word, Instr.row]⟩

theorem feedP5 (b : Byte) (now : Nat) : Statement (.feedP5 b now) := ⟨rfl, by simp [encode, Code.word, Instr.row]⟩

theorem feedP6 (b : Byte) (now : Nat) : Statement (.feedP6 b now) := ⟨rfl, by simp [encode, Code.word, Instr.row]⟩

theorem feedP7 (b : Byte) (now : Nat) : Statement (.feedP7 b now) := ⟨rfl, by simp [encode, Code.word, Instr.row]⟩

theorem feedP8 (b : Byte) (now : Nat) : Statement (.feedP8 b now) := ⟨rfl, by simp [encode, Code.word, Instr.row]⟩

theorem feedP9 (b : Byte) (now : Nat) : Statement (.feedP9 b now) := ⟨rfl, by simp [encode, Code.word, Instr.row]⟩

theorem feedP10 (b : Byte) (now : Nat) : Statement (.feedP10 b now) := ⟨rfl, by simp [encode, Code.word, Instr.row]⟩

theorem feedP11 (b : Byte) (now : Nat) : Statement (.feedP11 b now) := ⟨rfl, by simp [encode, Code.word, Instr.row]⟩

theorem feedP12 (b : Byte) (now : Nat) : Statement (.feedP12 b now) := ⟨rfl, by simp [encode, Code.word, Instr.row]⟩

theorem feedP13 (b : Byte) (now : Nat) : Statement (.feedP13 b now) := ⟨rfl, by simp [encode, Code.word, Instr.row]⟩

theorem feedP14 (b : Byte) (now : Nat) : Statement (.feedP14 b now) := ⟨rfl, by simp [encode, Code.word, Instr.row]⟩

theorem reservedSel1f : Statement .reservedSel1f := ⟨rfl, by decide⟩

theorem eofRejectPrefix (now : Nat) : Statement (.eofRejectPrefix now) := ⟨rfl, by simp [encode, Code.word, Instr.row]⟩

theorem eofRejectSeq (now : Nat) : Statement (.eofRejectSeq now) := ⟨rfl, by simp [encode, Code.word, Instr.row]⟩

theorem eofRejectCsum (now : Nat) : Statement (.eofRejectCsum now) := ⟨rfl, by simp [encode, Code.word, Instr.row]⟩

theorem eofDecode (now : Nat) : Statement (.eofDecode now) := ⟨rfl, by simp [encode, Code.word, Instr.row]⟩

theorem xaccAcc (b : Byte) : Statement (.xaccAcc b) := ⟨rfl, by simp [encode, Code.word, Instr.row]⟩

theorem xaccClr : Statement .xaccClr := ⟨rfl, by decide⟩

theorem xaccChk : Statement .xaccChk := ⟨rfl, by decide⟩

theorem bit (v : Byte) (i : Nat) : Statement (.bit v i) := ⟨rfl, by simp [encode, Code.word, Instr.row]⟩

theorem fields : Statement .fields := ⟨rfl, by decide⟩

theorem flags : Statement .flags := ⟨rfl, by decide⟩

theorem tsInterval (now : Nat) : Statement (.tsInterval now) := ⟨rfl, by simp [encode, Code.word, Instr.row]⟩

theorem tsUpdate (now : Nat) : Statement (.tsUpdate now) := ⟨rfl, by simp [encode, Code.word, Instr.row]⟩

theorem eofEpilogue (now : Nat) : Statement (.eofEpilogue now) := ⟨rfl, by simp [encode, Code.word, Instr.row]⟩

theorem frame (f : WireFrame) (t0 d : Nat) : Statement (.frame f t0 d) := by
  refine ⟨rfl, ?_⟩
  have split : ∃ lo, lo < 2 ^ 104 ∧ wireWord f.bytes = 0x0103 * 2 ^ 104 + lo := by
    refine ⟨wireWord f.bytes - 0x0103 * 2 ^ 104, ?_, ?_⟩ <;>
      simp only [wireWord, WireFrame.bytes, List.foldl, Config.magic0, Config.magic1] <;>
      simp only [BitVec.toNat_ofNat] <;>
      omega
  obtain ⟨lo, hlo, he⟩ := split
  show wireWord f.bytes &&& (0xFFFF * 2 ^ 104) = 0x0103 * 2 ^ 104
  rw [he]
  exact and_upper 0x0103 lo hlo (by norm_num)

end Sys2Proof.Laws.EncodeInRow
end

