-- ==== Sys2Proof/Tests/Slice0.lean ====
section
/-! SUPPORT. Small tests, their expected results taken from 95_test_vectors.md and from the tables of 30_encoding.md, and a witness
for the hypotheses of every statement that has some. -/

namespace Sys2Proof.Tests

open Sys2Proof.Machine

-- ==== Helpers ====

/-- The RAW_INIT of 95_test_vectors.md: E0 E1 ... EE. -/
def filler : RawFrame :=
  #v[0xE0#8, 0xE1#8, 0xE2#8, 0xE3#8, 0xE4#8, 0xE5#8, 0xE6#8, 0xE7#8, 0xE8#8, 0xE9#8, 0xEA#8, 0xEB#8, 0xEC#8, 0xED#8, 0xEE#8]

/-- The cells of a buffer holding `filler`. -/
def fillerCells : Memory :=
  [(0, 0xE0#8), (1, 0xE1#8), (2, 0xE2#8), (3, 0xE3#8), (4, 0xE4#8), (5, 0xE5#8), (6, 0xE6#8), (7, 0xE7#8), (8, 0xE8#8),
    (9, 0xE9#8), (10, 0xEA#8), (11, 0xEB#8), (12, 0xEC#8), (13, 0xED#8), (14, 0xEE#8)]

/-- The state `(k, acc, 1, synced, 0, 0)` of 95_test_vectors.md, TERMINATE, `raw = RAW_INIT`. -/
def valid (k : Offset) (acc : Byte) (synced : Bool) : State :=
  { State.reset with
    raw := fillerCells, cursor := k, acc := acc, synced := synced
    config := { policy := .terminate, tsWidth := 64, rawInit := filler } }

/-- The same under COLLECT. -/
def collecting (k : Offset) (acc : Byte) (synced : Bool) : State :=
  { valid k acc synced with config := { policy := .collect, tsWidth := 64, rawInit := filler } }

/-- A frame marked invalid under COLLECT: `(k, acc, 0, synced, err, 0)`. -/
def failing (k : Offset) (acc : Byte) (synced : Bool) (err : PendingErr) : State :=
  { collecting k acc synced with frameOk := false, err := err }

/-- The source's frame S3 in the buffer up to byte 13, byte 14 stale, before its last byte. -/
def beforeLast : State :=
  { valid 14 0x35#8 true with
    raw := [(0, 0x01#8), (1, 0x03#8), (2, 0x02#8), (5, 0xAB#8), (7, 0x64#8), (9, 0x32#8), (10, 0xC8#8), (14, 0xEE#8)] }

/-- The frame of V-B14 in the buffer, complete. -/
def wholeFrame : State :=
  { valid 14 0x09#8 true with
    raw := [(0, 0x01#8), (1, 0x03#8), (2, 0x02#8), (3, 0x11#8), (4, 0x22#8), (5, 0x33#8), (6, 0x4A#8), (7, 0x55#8), (8, 0x66#8),
      (9, 0x77#8), (10, 0x88#8), (11, 0x99#8), (12, 0xAA#8), (13, 0xBC#8), (14, 0x09#8)] }

/-- `(cursor, acc, frame_ok, synced, err, last_ts)`. -/
structure Regs where
  cursor  : Nat
  acc     : Byte
  frameOk : Bool
  synced  : Bool
  err     : PendingErr
  lastTs  : Nat
  deriving DecidableEq, Repr

/-- The registers of a state. -/
def regs (t : State) : Regs := ⟨t.cursor.val, t.acc, t.frameOk, t.synced, t.err, t.lastTs⟩

/-- What `f` sees of the next state, if there is one. -/
def seen {α : Type} (f : State → α) : Host.Outcome State Fault Refusal → Option α
  | .next t => some (f t)
  | _ => none

/-- The registers, the event, and the byte at `k`. -/
def view (k : Offset) (o : Host.Outcome State Fault Refusal) :
    Option (Regs × FrameEvent × Byte) :=
  seen (fun t => (regs t, t.event, t.rawAt k)) o

-- ==== WellFormed: an ill-formed operation for each check ====

theorem test_wellFormed_refuses_wide_timestamp :
    ([.reset 256, .feedP0 0x01#8 256, .feedP1 0x01#8 256, .feedP2 0x01#8 256, .feedP3 0x01#8 256, .feedP4 0x01#8 256, .feedP5 0x01#8 256, .feedP6 0x01#8 256, .feedP7 0x01#8 256, .feedP8 0x01#8 256, .feedP9 0x01#8 256, .feedP10 0x01#8 256, .feedP11 0x01#8 256, .feedP12 0x01#8 256, .feedP13 0x01#8 256, .feedP14 0x01#8 256, .eofRejectPrefix 256, .eofRejectSeq 256, .eofRejectCsum 256, .eofDecode 256, .tsInterval 256, .tsUpdate 256, .eofEpilogue 256] : List Instr).all (fun i => !i.wellFormed 8) = true := by decide

theorem test_wellFormed_takes_largest_timestamp :
    ([.reset 255, .feedP0 0x01#8 255, .feedP1 0x01#8 255, .feedP2 0x01#8 255, .feedP3 0x01#8 255, .feedP4 0x01#8 255, .feedP5 0x01#8 255, .feedP6 0x01#8 255, .feedP7 0x01#8 255, .feedP8 0x01#8 255, .feedP9 0x01#8 255, .feedP10 0x01#8 255, .feedP11 0x01#8 255, .feedP12 0x01#8 255, .feedP13 0x01#8 255, .feedP14 0x01#8 255, .eofRejectPrefix 255, .eofRejectSeq 255, .eofRejectCsum 255, .eofDecode 255, .tsInterval 255, .tsUpdate 255, .eofEpilogue 255] : List Instr).all (fun i => i.wellFormed 8) = true := by decide

theorem test_wellFormed_refuses_bit_position : (Instr.bit 0xFF#8 8).wellFormed 8 = false ∧ (Instr.bit 0xFF#8 7).wellFormed 8 = true := by
  decide

/-- The frame of S3. -/
def frameS3 : WireFrame :=
  ⟨0x02#8, 0x00#8, 0x00#8, 0xAB#8, 0x00#8, 0x64#8, 0x00#8, 0x32#8, 0xC8#8, 0x00#8, 0x00#8, 0x00#8, 0x35#8⟩

theorem test_wellFormed_refuses_wide_frame_time :
    (Instr.frame frameS3 241 1).wellFormed 8 = false ∧ (Instr.frame frameS3 240 1).wellFormed 8 = true := by decide

-- ==== Decode: a word of 30_encoding.md R57, R58, R50 for every constructor ====

theorem test_decode_reset : decode (.sel6 0b100000#6 0x00#8 7) = .ok (.reset 7) ∧ decode (.sel6 0b111110#6 0x01#8 7) = .ok (.reset 7) := by
  decide

theorem test_decode_idle : decode (.sel6 0b000000#6 0x00#8 7) = .ok .idle ∧ decode (.sel6 0b001111#6 0x01#8 7) = .ok .idle := by decide

theorem test_decode_feedP0 : decode (.sel6 0b010000#6 0xA0#8 7) = .ok (.feedP0 0xA0#8 7) := by decide

theorem test_decode_feedP1 : decode (.sel6 0b010001#6 0xA1#8 7) = .ok (.feedP1 0xA1#8 7) := by decide

theorem test_decode_feedP2 : decode (.sel6 0b010010#6 0xA2#8 7) = .ok (.feedP2 0xA2#8 7) := by decide

theorem test_decode_feedP3 : decode (.sel6 0b010011#6 0xA3#8 7) = .ok (.feedP3 0xA3#8 7) := by decide

theorem test_decode_feedP4 : decode (.sel6 0b010100#6 0xA4#8 7) = .ok (.feedP4 0xA4#8 7) := by decide

theorem test_decode_feedP5 : decode (.sel6 0b010101#6 0xA5#8 7) = .ok (.feedP5 0xA5#8 7) := by decide

theorem test_decode_feedP6 : decode (.sel6 0b010110#6 0xA6#8 7) = .ok (.feedP6 0xA6#8 7) := by decide

theorem test_decode_feedP7 : decode (.sel6 0b010111#6 0xA7#8 7) = .ok (.feedP7 0xA7#8 7) := by decide

theorem test_decode_feedP8 : decode (.sel6 0b011000#6 0xA8#8 7) = .ok (.feedP8 0xA8#8 7) := by decide

theorem test_decode_feedP9 : decode (.sel6 0b011001#6 0xA9#8 7) = .ok (.feedP9 0xA9#8 7) := by decide

theorem test_decode_feedP10 : decode (.sel6 0b011010#6 0xAA#8 7) = .ok (.feedP10 0xAA#8 7) := by decide

theorem test_decode_feedP11 : decode (.sel6 0b011011#6 0xAB#8 7) = .ok (.feedP11 0xAB#8 7) := by decide

theorem test_decode_feedP12 : decode (.sel6 0b011100#6 0xAC#8 7) = .ok (.feedP12 0xAC#8 7) := by decide

theorem test_decode_feedP13 : decode (.sel6 0b011101#6 0xAD#8 7) = .ok (.feedP13 0xAD#8 7) := by decide

theorem test_decode_feedP14 : decode (.sel6 0b011110#6 0xAE#8 7) = .ok (.feedP14 0xAE#8 7) := by decide

theorem test_decode_reservedSel1f : decode (.sel6 0b011111#6 0x35#8 7) = .ok .reservedSel1f := by decide

theorem test_decode_eofRejectPrefix :
    decode (.eofSel4 0b0010#4 9) = .ok (.eofRejectPrefix 9) ∧ decode (.eofSel4 0b0011#4 9) = .ok (.eofRejectPrefix 9) := by decide

theorem test_decode_eofRejectSeq :
    decode (.eofSel4 0b0100#4 9) = .ok (.eofRejectSeq 9) ∧ decode (.eofSel4 0b0101#4 9) = .ok (.eofRejectSeq 9) := by decide

theorem test_decode_eofRejectCsum : decode (.eofSel4 0b1000#4 9) = .ok (.eofRejectCsum 9) := by decide

theorem test_decode_eofDecode : decode (.eofSel4 0b1001#4 9) = .ok (.eofDecode 9) := by decide

theorem test_decode_eof_unreachable : decode (.eofSel4 0b1100#4 9) = .error (.unreachableEofSel 0b1100#4) := by decide

theorem test_decode_xaccAcc :
    decode (.sel6Sub 0b010111#6 0x64#8) = .ok (.xaccAcc 0x64#8) ∧
    decode (.sel6Sub 0b110111#6 0x64#8) = .error (.inactiveUnderSel 0b110111#6) := by decide

theorem test_decode_xaccClr : decode (.eofSel4Sub .xaccClr 0b0010#4 0x00#8 0 0) = .ok .xaccClr := by decide

theorem test_decode_xaccChk :
    decode (.eofSel4Sub .xaccChk 0b1000#4 0x00#8 0 0) = .ok .xaccChk ∧
    decode (.eofSel4Sub .xaccChk 0b0010#4 0x00#8 0 0) = .error (.inactiveUnderEofSel .xaccChk 0b0010#4) := by decide

theorem test_decode_bit :
    decode (.eofSel4Sub .bit 0b1001#4 0x0E#8 1 0) = .ok (.bit 0x0E#8 1) ∧
    decode (.eofSel4Sub .bit 0b1001#4 0x0E#8 8 0) = .error (.bitPosition 8) := by decide

theorem test_decode_fields : decode (.eofSel4Sub .fields 0b1001#4 0x00#8 0 0) = .ok .fields := by decide

theorem test_decode_flags : decode (.eofSel4Sub .flags 0b1001#4 0x00#8 0 0) = .ok .flags := by decide

theorem test_decode_tsInterval : decode (.eofSel4Sub .tsInterval 0b1001#4 0x00#8 0 350) = .ok (.tsInterval 350) := by decide

theorem test_decode_tsUpdate : decode (.eofSel4Sub .tsUpdate 0b0100#4 0x00#8 0 40) = .ok (.tsUpdate 40) := by decide

theorem test_decode_eofEpilogue : decode (.eofSel4Sub .eofEpilogue 0b1001#4 0x00#8 0 40) = .ok (.eofEpilogue 40) := by decide

theorem test_decode_frame :
    decode (.wire15 [0x01#8, 0x03#8, 0x02#8, 0x00#8, 0x00#8, 0xAB#8, 0x00#8, 0x64#8, 0x00#8, 0x32#8, 0xC8#8, 0x00#8, 0x00#8, 0x00#8,
      0x35#8] 1000 10) = .ok (.frame frameS3 1000 10) := by decide

theorem test_decode_frame_refused :
    decode (.wire15 [0x01#8] 0 1) = .error (.frameLength 1) ∧
    decode (.wire15 [0x55#8, 0x03#8, 2, 3, 4, 5, 6, 7, 8, 9, 10, 11, 12, 13, 14] 0 1) = .error (.frameMagic0 0x55#8) ∧
    decode (.wire15 [0x01#8, 0x01#8, 2, 3, 4, 5, 6, 7, 8, 9, 10, 11, 12, 13, 14] 0 1) = .error (.frameMagic1 0x01#8) := by decide

theorem test_decodeTableWord_feedP5 : decodeTableWord 8 0x15 = some (.feedP5 0x00#8 0) := by decide

theorem test_decodeTableWord_frame :
    decodeTableWord 120 0x01030200004B0064003200000000FF =
      some (.frame ⟨0x02#8, 0x00#8, 0x00#8, 0x4B#8, 0x00#8, 0x64#8, 0x00#8, 0x32#8, 0x00#8, 0x00#8, 0x00#8, 0x00#8, 0xFF#8⟩ 0 0) := by
  decide

-- ==== One step: RESET, IDLE, FEED (V-R, V-F, V-C) ====

/-- V-R1. -/
theorem test_reset_from_any_state :
    view 0 (exec (.reset 100) (valid 7 0xCF#8 true)) = some (⟨0, 0x00#8, true, false, .none, 100⟩, .none, 0xE0#8) := by
  decide +kernel

/-- V-R2: the presented byte is not stored. -/
theorem test_reset_before_byte :
    view 0 (step { valid 7 0xCF#8 true with stimulus := [⟨true, true, 0x01#8, 7⟩] }) =
      some (⟨0, 0x00#8, true, false, .none, 7⟩, .none, 0xE0#8) := by decide +kernel

/-- V-F26. -/
theorem test_idle_changes_nothing :
    step { valid 7 0xCF#8 true with stimulus := [⟨false, false, 0x55#8, 9⟩] } = .next (valid 7 0xCF#8 true) := by rfl

/-- U1. -/
theorem test_reservedSel1f_refused : exec .reservedSel1f (valid 0 0x00#8 false) = .refused .reservedSelector := by rfl

/-- V-F2. -/
theorem test_feedP0_mismatch :
    view 0 (exec (.feedP0 0x55#8 9) (valid 0 0x00#8 true)) =
      some (⟨0, 0x00#8, true, true, .none, 9⟩, .rejected ⟨.prefixMismatch, #v[0x55#8, 0xE1#8, 0xE2#8, 0xE3#8, 0xE4#8, 0xE5#8, 0xE6#8, 0xE7#8, 0xE8#8, 0xE9#8, 0xEA#8, 0xEB#8, 0xEC#8, 0xED#8, 0xEE#8]⟩, 0x55#8) := by decide

/-- V-F5. -/
theorem test_feedP1_match :
    view 1 (exec (.feedP1 0x03#8 3) (valid 1 0x01#8 true)) =
      some (⟨2, 0x02#8, true, true, .none, 0⟩, .none, 0x03#8) := by decide

/-- V-F7. -/
theorem test_feedP1_mismatch :
    (seen (fun t => (regs t, t.event)) (exec (.feedP1 0x01#8 4) { valid 1 0x01#8 true with raw := (0, 0x01#8) :: fillerCells.tail })) =
      some (⟨0, 0x00#8, true, true, .none, 4⟩,
        .rejected ⟨.prefixMismatch, #v[0x01#8, 0x01#8, 0xE2#8, 0xE3#8, 0xE4#8, 0xE5#8, 0xE6#8, 0xE7#8, 0xE8#8, 0xE9#8, 0xEA#8, 0xEB#8, 0xEC#8, 0xED#8, 0xEE#8]⟩) := by
  decide

/-- V-F13. -/
theorem test_feedP3 :
    view 3 (exec (.feedP3 0x00#8 3) (valid 3 0x00#8 true)) =
      some (⟨4, 0x00#8, true, true, .none, 0⟩, .none, 0x00#8) := by decide

/-- V-F14. -/
theorem test_feedP4 :
    view 4 (exec (.feedP4 0x7E#8 3) (valid 4 0x00#8 true)) =
      some (⟨5, 0x7E#8, true, true, .none, 0⟩, .none, 0x7E#8) := by decide

/-- V-F15. -/
theorem test_feedP5 :
    view 5 (exec (.feedP5 0xAB#8 3) (valid 5 0x00#8 true)) =
      some (⟨6, 0xAB#8, true, true, .none, 0⟩, .none, 0xAB#8) := by decide

/-- V-F16. -/
theorem test_feedP6 :
    view 6 (exec (.feedP6 0x0E#8 3) (valid 6 0xAB#8 true)) =
      some (⟨7, 0xA5#8, true, true, .none, 0⟩, .none, 0x0E#8) := by decide

/-- V-F17. -/
theorem test_feedP7 :
    view 7 (exec (.feedP7 0x64#8 3) (valid 7 0xAB#8 true)) =
      some (⟨8, 0xCF#8, true, true, .none, 0⟩, .none, 0x64#8) := by decide

/-- V-F18. -/
theorem test_feedP8 :
    view 8 (exec (.feedP8 0x00#8 3) (valid 8 0xCF#8 true)) =
      some (⟨9, 0xCF#8, true, true, .none, 0⟩, .none, 0x00#8) := by decide

/-- V-F19. -/
theorem test_feedP9 :
    view 9 (exec (.feedP9 0x32#8 3) (valid 9 0xCF#8 true)) =
      some (⟨10, 0xFD#8, true, true, .none, 0⟩, .none, 0x32#8) := by decide

/-- V-F20. -/
theorem test_feedP10 :
    view 10 (exec (.feedP10 0xC8#8 3) (valid 10 0xFD#8 true)) =
      some (⟨11, 0x35#8, true, true, .none, 0⟩, .none, 0xC8#8) := by decide

/-- V-F21. -/
theorem test_feedP11 :
    view 11 (exec (.feedP11 0x00#8 3) (valid 11 0x35#8 true)) =
      some (⟨12, 0x35#8, true, true, .none, 0⟩, .none, 0x00#8) := by decide

/-- V-F22. -/
theorem test_feedP12 :
    view 12 (exec (.feedP12 0xFF#8 3) (valid 12 0x35#8 true)) =
      some (⟨13, 0xCA#8, true, true, .none, 0⟩, .none, 0xFF#8) := by decide

/-- V-F23. -/
theorem test_feedP13 :
    view 13 (exec (.feedP13 0x00#8 3) (valid 13 0x35#8 true)) =
      some (⟨14, 0x35#8, true, true, .none, 0⟩, .none, 0x00#8) := by decide

/-- V-F25. -/
theorem test_feedP14_rejected :
    view 14 (exec (.feedP14 0x34#8 15) beforeLast) =
      some (⟨0, 0x00#8, true, true, .none, 15⟩,
        .rejected ⟨.checksumMismatch, #v[0x01#8, 0x03#8, 0x02#8, 0x00#8, 0x00#8, 0xAB#8, 0x00#8, 0x64#8, 0x00#8, 0x32#8, 0xC8#8, 0x00#8,
          0x00#8, 0x00#8, 0x34#8]⟩, 0x34#8) := by decide

/-- V-C1. -/
theorem test_collect_feedP0 :
    view 0 (exec (.feedP0 0x55#8 9) (collecting 0 0x00#8 true)) =
      some (⟨1, 0x00#8, false, true, .prefixMismatch, 0⟩, .none, 0x55#8) := by decide

/-- V-C4: `synced` is not set and `err` stays. -/
theorem test_collect_feedP2_already_invalid :
    view 2 (exec (.feedP2 0x02#8 9) (failing 2 0x00#8 false .prefixMismatch)) =
      some (⟨3, 0x00#8, false, false, .prefixMismatch, 0⟩, .none, 0x02#8) := by decide

/-- V-C6, for a buffer of fillers. -/
theorem test_collect_feedP14 :
    view 14 (exec (.feedP14 0x32#8 15) (failing 14 0x02#8 false .unexpectedInitialSequence)) =
      some (⟨0, 0x00#8, true, false, .none, 15⟩,
        .rejected ⟨.unexpectedInitialSequence, #v[0xE0#8, 0xE1#8, 0xE2#8, 0xE3#8, 0xE4#8, 0xE5#8, 0xE6#8, 0xE7#8, 0xE8#8, 0xE9#8, 0xEA#8,
          0xEB#8, 0xEC#8, 0xED#8, 0x32#8]⟩, 0x32#8) := by decide

/-- V-E8: the validity gate comes before the checksum test, although `acc` equals the stale byte 14. -/
theorem test_validity_before_checksum :
    seen (fun t => t.event.forgetRaw) (exec (.feedP2 0x07#8 3) { valid 2 0x02#8 false with raw := [(0, 1), (1, 3), (14, 0x02#8)] }) =
      some (FrameEvent.rejected ⟨.unexpectedInitialSequence, filler⟩).forgetRaw := by decide

/-- The same word through the fetch: FEED.P5 placed is the next step. -/
theorem test_withFetchWord_feedP5 : (State.reset.withFetchWord 8 0x15).nextInstr = .feedP5 0x00#8 0 := by decide

-- ==== End of frame and sub-operations (V-E, V-X, V-B, V-T) ====

/-- R112: EOF.REJECT.PREFIX. -/
theorem test_eofRejectPrefix :
    seen (fun t => (regs t, t.event)) (exec (.eofRejectPrefix 9) (failing 14 0x02#8 false .prefixMismatch)) =
      some (⟨0, 0x00#8, true, false, .none, 9⟩, .rejected ⟨.prefixMismatch, filler⟩) := by decide

/-- R113: EOF.REJECT.SEQ. -/
theorem test_eofRejectSeq :
    seen (fun t => (regs t, t.event)) (exec (.eofRejectSeq 9) (failing 14 0x02#8 false .unexpectedInitialSequence)) =
      some (⟨0, 0x00#8, true, false, .none, 9⟩, .rejected ⟨.unexpectedInitialSequence, filler⟩) := by decide

/-- R114: EOF.REJECT.CSUM. -/
theorem test_eofRejectCsum :
    seen (fun t => (regs t, t.event)) (exec (.eofRejectCsum 15) (valid 14 0x00#8 true)) =
      some (⟨0, 0x00#8, true, true, .none, 15⟩, .rejected ⟨.checksumMismatch, filler⟩) := by decide

/-- V-B14: the fields and flags of the frame, the interval from `last_ts = 0`. -/
theorem test_eofDecode :
    seen (fun t => (regs t, t.event)) (exec (.eofDecode 15) wholeFrame) =
      some (⟨0, 0x00#8, true, true, .none, 15⟩,
        .decoded ⟨0x02#8, 0x33#8, 0x55#8, 0x77#8, 0x88#8, true, false, true, 15⟩) := by decide

/-- R116. -/
theorem test_eofEpilogue :
    view 14 (exec (.eofEpilogue 40) (failing 9 0x07#8 true .prefixMismatch)) =
      some (⟨0, 0x00#8, true, true, .none, 40⟩, .none, 0xEE#8) := by decide

/-- The example of R100. -/
theorem test_xaccAcc :
    seen regs (exec (.xaccAcc 0x64#8) (valid 7 0xAB#8 true)) = some ⟨7, 0xCF#8, true, true, .none, 0⟩ := by decide

/-- R100 (a): the byte at position 14 is never accumulated. -/
theorem test_xaccAcc_at_14 :
    seen regs (exec (.xaccAcc 0x64#8) (valid 14 0xAB#8 true)) = some ⟨14, 0xAB#8, true, true, .none, 0⟩ := by decide

/-- The example of R101. -/
theorem test_xaccClr : seen regs (exec .xaccClr (valid 14 0x35#8 true)) = some ⟨14, 0x00#8, true, true, .none, 0⟩ := by decide

/-- V-X10 in the form of the frame of V-B14. -/
theorem test_xaccChk_equal : seen State.value (exec .xaccChk wholeFrame) = some (.csumOk true) := by decide

/-- V-X12: zero is rejected although the bytes are equal. -/
theorem test_xaccChk_zero :
    seen State.value (exec .xaccChk { valid 14 0x00#8 true with raw := [] }) = some (.csumOk false) := by decide

/-- V-B13. -/
theorem test_bit :
    [(0x80#8, 7), (0x80#8, 6), (0x01#8, 0), (0xFF#8, 8)].map
      (fun x => seen State.value (exec (.bit x.1 x.2) (valid 0 0x00#8 false))) =
      [some (.bit true), some (.bit false), some (.bit true), some (.bit false)] := by decide

/-- V-B14. -/
theorem test_fields :
    seen State.value (exec .fields wholeFrame) = some (.fields ⟨0x02#8, 0x33#8, 0x55#8, 0x77#8, 0x88#8⟩) := by decide

/-- V-B8 and V-B7: `raw[6] = 0E` and `raw[6] = 0C`. -/
theorem test_flags :
    seen State.value (exec .flags { valid 14 0x00#8 true with raw := [(6, 0x0E#8), (9, 0x32#8)] }) =
      some (.flags ⟨true, true, true⟩) ∧
    seen State.value (exec .flags { valid 14 0x00#8 true with raw := [(6, 0x0C#8), (9, 0x32#8)] }) =
      some (.flags ⟨false, true, true⟩) := by decide

/-- V-B15: byte 9 gives no flag. -/
theorem test_flags_not_from_byte_9 :
    seen State.value (exec .flags { valid 14 0x00#8 true with raw := [(9, 0xFF#8)] }) =
      some (.flags ⟨false, false, false⟩) := by decide

/-- The example of R141. -/
theorem test_tsInterval :
    seen State.value (exec (.tsInterval 350) { valid 14 0x00#8 true with lastTs := 100 }) = some (.interval 250) := by decide

/-- V-T6: TS_WIDTH 8, the modular difference. -/
theorem test_tsInterval_wraps :
    seen State.value (exec (.tsInterval 9)
      { valid 14 0x00#8 true with lastTs := 250, config := ⟨.terminate, 8, filler⟩ }) = some (.interval 15) ∧
    seen State.value (exec (.tsInterval 54)
      { valid 14 0x00#8 true with lastTs := 10, config := ⟨.terminate, 8, filler⟩ }) = some (.interval 44) := by decide

/-- The example of R142. -/
theorem test_tsUpdate : seen (fun t => t.lastTs) (exec (.tsUpdate 40) (valid 3 0x00#8 true)) = some 40 := by decide

/-- S3 from the start of a frame, `last_ts = 0`, bytes at 10, 20, ..., 150. -/
theorem test_frame_decoded :
    seen (fun t => (regs t, t.event)) (exec (.frame frameS3 0 10) (valid 0 0x00#8 false)) =
      some (⟨0, 0x00#8, true, true, .none, 150⟩,
        .decoded ⟨0x02#8, 0xAB#8, 0x64#8, 0x32#8, 0xC8#8, false, false, false, 150⟩) := by decide +kernel

/-- V-E3: a zero XOR is rejected although byte 14 equals it. -/
theorem test_frame_zero_checksum :
    seen (fun t => (regs t, t.event.forgetRaw)) (exec (.frame ⟨0x02#8, 0, 0, 0, 0, 0, 0, 0, 0, 0, 0, 0, 0x00#8⟩ 0 1)
      (valid 0 0x00#8 false)) =
      some (⟨0, 0x00#8, true, true, .none, 15⟩, (FrameEvent.rejected ⟨.checksumMismatch, filler⟩).forgetRaw) := by decide +kernel

-- ==== The memory's canonical form ====

theorem test_reset_memory_wf : State.reset.raw.wf = true := by decide

theorem test_memory_wf_refuses :
    Memory.wf [(3, 0x01#8), (3, 0x02#8)] = false ∧ Memory.wf [(3, 0x00#8)] = false ∧ Memory.wf [(15, 0x01#8)] = false := by decide

-- ==== Witnesses: the hypotheses of each statement can be met, each clause at a boundary of its range ====

/-- `s` with one byte to come. -/
def given (s : State) (b : Byte) (now : Nat) : State := { s with stimulus := [Stimulus.feed b now] }

theorem witness_inv_start : (valid 0 0x00#8 false).Inv := by constructor <;> decide

theorem witness_inv_before_last : beforeLast.Inv := by constructor <;> decide

theorem witness_inv_failing : (failing 14 0x02#8 false .unexpectedInitialSequence).Inv := by constructor <;> decide

theorem witness_StepRunsDecodedInstruction :
    (given (valid 14 0x35#8 true) 0x35#8 9).stimulus = Stimulus.feed 0x35#8 9 :: [] ∧
    decode (.sel6 (selector false true 14) 0x35#8 9) = .ok (.feedP14 0x35#8 9) ∧ State.reset.stimulus = [] := by decide

theorem witness_DecodeEncodeRoundTrip :
    (Instr.bit 0xFF#8 7).wellFormed 8 = true ∧ (Instr.feedP14 0xFF#8 255).wellFormed 8 = true ∧
    (Instr.frame frameS3 240 1).wellFormed 8 = true ∧ (Instr.reset 0).wellFormed 0 = true := by decide

theorem witness_SelectorWordsSelectOneRow :
    Instr.idle.row.format = .sel6 ∧ (0b001111#6).toNat &&& Instr.idle.row.mask = Instr.idle.row.value ∧
    (Instr.reset 0).row.format = .sel6 ∧ (0b111111#6).toNat &&& (Instr.reset 0).row.mask = (Instr.reset 0).row.value := by decide

theorem witness_PlacedWordIsNextInstruction : (62 < 64 ∧ 62 % 16 ≠ 15) ∧ (0 < 64 ∧ 0 % 16 ≠ 15) := by decide

theorem witness_ResetHasPriorityOverByte :
    { valid 7 0x00#8 true with stimulus := [⟨true, true, 0x01#8, 7⟩] }.stimulus = ⟨true, true, 0x01#8, 7⟩ :: [] := by decide

theorem witness_IdleChangesNothing :
    { valid 7 0x00#8 true with stimulus := [⟨false, false, 0x01#8, 7⟩] }.stimulus = ⟨false, false, 0x01#8, 7⟩ :: [] := by decide

theorem witness_EveryOperationCompletesAndKeepsConfig : Instr.frame frameS3 0 1 ≠ .reservedSel1f := by decide

theorem witness_FeedP0ChecksMagic0 :
    (valid 0 0x00#8 false).frameOk = true ∧ (0x00#8 : Byte) ≠ 0x01#8 ∧ (valid 0 0x00#8 false).config.policy = .terminate := by
  decide

theorem witness_FeedP1ChecksMagic1 :
    (valid 1 0x01#8 false).frameOk = true ∧ (0x01#8 : Byte) ≠ 0x03#8 ∧ (valid 1 0x01#8 false).config.policy = .terminate := by
  decide

theorem witness_FeedP2ChecksFirstSequence :
    (valid 2 0x02#8 true).frameOk = true ∧ (valid 2 0x02#8 true).synced = true ∧ (valid 2 0x02#8 false).frameOk = true ∧
    (valid 2 0x02#8 false).synced = false ∧ (0xFF#8 : Byte) ≠ 0x02#8 ∧
    (valid 2 0x02#8 false).config.policy = .terminate := by decide

theorem witness_FeedP3ToP13StoreAndAccumulate :
    (valid 3 0x00#8 true).frameOk = true ∧ (valid 13 0x35#8 true).frameOk = true := by decide

theorem witness_FeedP14DecidesByChecksum :
    beforeLast.raw.wf = true ∧ beforeLast.frameOk = true ∧ (beforeLast.acc ≠ 0x00#8 ∧ beforeLast.acc = 0x35#8) ∧
    (valid 14 0x00#8 true).raw.wf = true ∧ ¬ ((valid 14 0x00#8 true).acc ≠ 0x00#8 ∧ (valid 14 0x00#8 true).acc = 0x00#8) := by
  decide

theorem witness_CollectFailedCheckContinues :
    (collecting 2 0x02#8 false).frameOk = true ∧ (collecting 2 0x02#8 false).config.policy = .collect ∧
    (collecting 2 0x02#8 false).synced = false ∧ (0x01#8 : Byte) ≠ 0x03#8 ∧ (0x03#8 : Byte) ≠ 0x01#8 ∧
    (0x03#8 : Byte) ≠ 0x02#8 := by decide

theorem witness_CollectInvalidFrameOnlyStores :
    (13 : Offset) ≠ 14 ∧ (0 : Offset) ≠ 14 ∧ (failing 13 0x02#8 false .prefixMismatch).frameOk = false ∧
    (failing 13 0x02#8 false .prefixMismatch).config.policy = .collect := by decide

theorem witness_InvalidFrameReportsRecordedReason :
    (failing 14 0x02#8 false .prefixMismatch).frameOk = false ∧ (failing 14 0x02#8 false .prefixMismatch).err = .prefixMismatch ∧
    (failing 14 0x02#8 false .unexpectedInitialSequence).err = .unexpectedInitialSequence ∧
    { valid 13 0x02#8 false with frameOk := false, err := .prefixMismatch }.config.policy = .terminate := by decide

theorem witness_FeedFrame :
    (∃ t, exec (feedInstr 13 0x00#8 3) (valid 13 0x35#8 true) = .next t ∧ t.event = .none) ∧
    (∃ t, exec (feedInstr 0 0x55#8 3) (valid 0 0x00#8 true) = .next t ∧ t.event ≠ .none) ∧
    (valid 13 0x35#8 true).raw.wf = true := ⟨⟨_, rfl, by decide⟩, ⟨_, rfl, by decide⟩, by decide⟩

theorem witness_CursorLaw :
    (given beforeLast 0x35#8 9).Inv ∧ (given beforeLast 0x35#8 9).cursor.val = 14 ∧
    (given (valid 0 0x00#8 false) 0x55#8 9).Inv ∧ (given (valid 0 0x00#8 false) 0x55#8 9).FailsCheck 0x55#8 ∧
    ¬ ((given (valid 0 0x00#8 false) 0x01#8 9).cursor.val = 14 ∨ (given (valid 0 0x00#8 false) 0x01#8 9).FailsCheck 0x01#8) ∧
    (given beforeLast 0x35#8 9).config.policy = .terminate := by
  refine ⟨?_, rfl, ?_, .inl ⟨rfl, by decide⟩, ?_, rfl⟩
  · constructor <;> decide
  · constructor <;> decide
  · simp [given, valid, State.FailsCheck]

theorem witness_CollectCursorLaw :
    (given (collecting 14 0x35#8 true) 0x35#8 9).config.policy = .collect ∧
    (given (collecting 14 0x35#8 true) 0x35#8 9).cursor.val = 14 ∧ (given (collecting 13 0x35#8 true) 0x35#8 9).cursor.val ≠ 14 ∧
    (given (collecting 13 0x35#8 true) 0x35#8 9).stimulus = Stimulus.feed 0x35#8 9 :: [] := by decide

theorem witness_EventExactlyAtFrameEnd :
    (given (valid 13 0x35#8 true) 0x00#8 9).stimulus = Stimulus.feed 0x00#8 9 :: [] ∧
    ((⟨true, true, 0x01#8, 7⟩ : Stimulus).rst = true ∨ (⟨true, true, 0x01#8, 7⟩ : Stimulus).inValid = false) ∧
    ((⟨false, false, 0x01#8, 7⟩ : Stimulus).rst = true ∨ (⟨false, false, 0x01#8, 7⟩ : Stimulus).inValid = false) := by decide

theorem witness_SynchronizationTransitions :
    (∃ t, step (given (valid 2 0x02#8 false) 0x02#8 3) = .next t ∧ t.synced = true) ∧
    (∃ t, step { valid 2 0x02#8 true with stimulus := [⟨true, false, 0x00#8, 3⟩] } = .next t ∧ t.synced = false) :=
  ⟨⟨_, rfl, by decide⟩, ⟨_, rfl, by decide⟩⟩

theorem witness_CompletionChangesOnlyTheEpilogue :
    (∃ t, step (given beforeLast 0x35#8 15) = .next t ∧ t.event ≠ .none) ∧
    (∃ t, step { given beforeLast 0x35#8 15 with stimulus := [Stimulus.feed 0x35#8 15, Stimulus.feed 0x01#8 16] } = .next t ∧
      t.stimulus = Stimulus.feed 0x01#8 16 :: []) := ⟨⟨_, rfl, by decide⟩, ⟨_, rfl, by decide⟩⟩

theorem witness_RejectionSnapshotKeepsStaleBytes :
    (given (valid 0 0x00#8 false) 0x55#8 9).raw.wf = true ∧
    ∃ t e, step (given (valid 0 0x00#8 false) 0x55#8 9) = .next t ∧ t.event = .rejected e := ⟨by decide, _, _, rfl, rfl⟩

theorem witness_CompletionStartsFreshFrame : ∃ t, step (given beforeLast 0x34#8 15) = .next t ∧ t.event ≠ .none :=
  ⟨_, rfl, by decide⟩

theorem witness_RejectionConditions :
    (given (valid 0 0x00#8 false) 0x55#8 9).Inv ∧ (given beforeLast 0x34#8 9).Inv ∧
    ((valid 0 0x00#8 false).cursor.val = 0 ∧ (0x55#8 : Byte) ≠ 0x01#8) ∧
    (beforeLast.cursor.val = 14 ∧ (beforeLast.acc = 0x00#8 ∨ beforeLast.acc ≠ 0x34#8)) ∧
    { valid 2 0x02#8 false with raw := [(0, 0x01#8), (1, 0x03#8)], stimulus := [Stimulus.feed 0x05#8 3] }.Inv := by
  refine ⟨?_, ?_, by decide, by decide, ?_⟩ <;> constructor <;> decide

theorem witness_CompletionsMoveTimestamp : (given beforeLast 0x35#8 15).stimulus = Stimulus.feed 0x35#8 15 :: [] := by decide

theorem witness_DecodedOnlyWhenChecksPass :
    (given beforeLast 0x35#8 15).Inv ∧ ∃ t d, step (given beforeLast 0x35#8 15) = .next t ∧ t.event = .decoded d := by
  refine ⟨?_, _, _, rfl, rfl⟩
  constructor <;> decide

theorem witness_EndOfFrameDecision :
    ((failing 14 0x02#8 false .prefixMismatch).frameOk = false ∧ (failing 14 0x02#8 false .prefixMismatch).err = .prefixMismatch) ∧
    (failing 14 0x02#8 false .unexpectedInitialSequence).err = .unexpectedInitialSequence ∧
    (wholeFrame.frameOk = true ∧ wholeFrame.err = .none ∧ wholeFrame.acc ≠ 0x00#8 ∧ wholeFrame.acc = wholeFrame.rawAt 14) ∧
    ((valid 14 0x00#8 true).frameOk = true ∧ (valid 14 0x00#8 true).err = .none ∧ (valid 14 0x00#8 true).acc = 0x00#8) := by decide

theorem witness_FeedP14RunsSelectedOutcome :
    decode (.eofSel4 { beforeLast with raw := beforeLast.raw.write 14 0x35#8 }.eofSel 15) = .ok (.eofDecode 15) ∧
    decode (.eofSel4 { beforeLast with raw := beforeLast.raw.write 14 0x34#8 }.eofSel 15) = .ok (.eofRejectCsum 15) := by decide

theorem witness_XaccAccumulates :
    (∃ t, exec (feedInstr 13 0x07#8 3) (valid 13 0x35#8 true) = .next t ∧ t.event = .none ∧ t.frameOk = true) ∧
    (∃ t, exec (feedInstr 0 0x55#8 3) (collecting 0 0x00#8 true) = .next t ∧ t.event = .none ∧ t.frameOk = false) :=
  ⟨⟨_, rfl, by decide⟩, ⟨_, rfl, by decide⟩⟩

theorem witness_XaccClears :
    (∃ t, step (given beforeLast 0x34#8 15) = .next t ∧ t.event ≠ .none) ∧
    { valid 7 0xCF#8 true with stimulus := [⟨true, true, 0x01#8, 7⟩] }.nextInput.rst = true := ⟨⟨_, rfl, by decide⟩, by decide⟩

theorem witness_XaccChecks :
    beforeLast.raw.wf = true ∧ beforeLast.frameOk = true ∧ (beforeLast.acc ≠ 0x00#8 ∧ beforeLast.acc = 0x35#8) ∧
    ¬ (beforeLast.acc ≠ 0x00#8 ∧ beforeLast.acc = 0x34#8) := by decide

theorem witness_TsUpdateCapturesNow :
    255 < 2 ^ { valid 0 0x00#8 false with config := ⟨.terminate, 8, filler⟩ }.config.tsWidth ∧
    0 < 2 ^ { valid 0 0x00#8 false with config := ⟨.terminate, 0, filler⟩ }.config.tsWidth := by decide

theorem witness_OperationsWithoutStoreKeepRawFrame :
    Instr.eofDecode 9 ∈ [.eofRejectPrefix 9, .eofRejectSeq 9, .eofRejectCsum 9, .eofDecode 9, .eofEpilogue 9, .xaccAcc 0x01#8,
      .xaccClr, .xaccChk, .bit 0x01#8 3, .fields, .flags, .tsInterval 9, .tsUpdate 9, .idle] ∧
    ∃ t, exec (.eofDecode 9) wholeFrame = .next t := ⟨by decide, _, rfl⟩

theorem witness_ComputingOperationsWriteNothing :
    Instr.bit 0x01#8 3 ∈ [.xaccChk, .bit 0x01#8 3, .fields, .flags, .tsInterval 9] ∧
    ∃ t, exec (.bit 0x01#8 3) wholeFrame = .next t := ⟨by decide, _, rfl⟩

/-- S3 while AwaitingFirstFrame; while Synchronized its sequence byte is free. -/
theorem witness_FrameAccepted :
    (valid 0 0x00#8 false).AtFrameStart ∧ (valid 0 0x00#8 false).raw.wf = true ∧ frameS3.seq = 0x02#8 ∧
    (valid 0 0x00#8 true).AtFrameStart ∧ (valid 0 0x00#8 true).synced = true ∧
    (0x01#8 ^^^ 0x03#8 ^^^ 0x02#8 ^^^ 0 ^^^ 0 ^^^ 0xAB#8 ^^^ 0 ^^^ 0x64#8 ^^^ 0 ^^^ 0x32#8 ^^^ 0xC8#8 ^^^ 0 ^^^ 0 ^^^ 0 : Byte) =
      0x35#8 ∧ frameS3.csum = 0x35#8 := by
  refine ⟨⟨rfl, rfl, rfl⟩, by decide, rfl, ⟨rfl, rfl, rfl⟩, rfl, by decide, rfl⟩

/-- V-E3 (a zero XOR) and a wrong byte 14. -/
theorem witness_FrameWithBadChecksumRejected :
    (0x01#8 ^^^ 0x03#8 ^^^ 0x02#8 : Byte) = 0x00#8 ∧ { frameS3 with csum := 0x34#8 }.csum ≠ 0x35#8 := by decide

/-- S3 as a stream at the start of a frame, and a stream that is no frame. -/
theorem witness_AcceptedFramesCharacterised :
    (valid 0 0x00#8 false).AtFrameStart ∧
    ∃ f : Fin 15 → Byte, ∃ at_ : Fin 15 → Nat, f 0 = 0x01#8 ∧ f 1 = 0x03#8 ∧ f 2 = 0x02#8 ∧ f 14 = 0x35#8 ∧
      f 0 ^^^ f 1 ^^^ f 2 ^^^ f 3 ^^^ f 4 ^^^ f 5 ^^^ f 6 ^^^ f 7 ^^^ f 8 ^^^ f 9 ^^^ f 10 ^^^ f 11 ^^^ f 12 ^^^ f 13 = 0x35#8 ∧
      { valid 0 0x00#8 false with stimulus := (List.ofFn fun n => Stimulus.feed (f n) (at_ n)) ++ [] }.stimulus =
        (List.ofFn fun n => Stimulus.feed (f n) (at_ n)) ++ [] := by
  refine ⟨⟨rfl, rfl, rfl⟩, fun k => frameS3.bytes.getD k.val 0, fun k => k.val, by decide, by decide, by decide, by decide, by decide, rfl⟩

theorem witness_NoiseIsRejectedByteByByte :
    (valid 0 0x00#8 true).AtFrameStart ∧ (valid 0 0x00#8 true).raw.wf = true ∧ (valid 0 0x00#8 true).config.policy = .terminate ∧
    (∀ x ∈ [((0x55#8 : Byte), 9), (0x00#8, 10), (0x03#8, 11)], x.1 ≠ 0x01#8) ∧ [((0x55#8 : Byte), 9), (0x00#8, 10), (0x03#8, 11)] ≠ [] := by
  refine ⟨⟨rfl, rfl, rfl⟩, by decide, rfl, by decide, by decide⟩

/-- Two buffers, other RAW_INIT values, a byte that is rejected and one that is not. -/
theorem witness_StaleBytesDoNotMatter :
    SameButStale (given (valid 0 0x00#8 true) 0x55#8 9)
      { given (valid 0 0x00#8 true) 0x55#8 9 with raw := [], config := { resetConfig with tsWidth := 64 } } ∧
    (given (valid 0 0x00#8 true) 0x55#8 9).Inv ∧
    { given (valid 0 0x00#8 true) 0x55#8 9 with raw := [], config := { resetConfig with tsWidth := 64 } }.Inv ∧
    ∃ t, step (given (valid 0 0x00#8 true) 0x55#8 9) = .next t ∧ t.event ≠ .none := by
  refine ⟨?_, ?_, ?_, _, rfl, by decide⟩
  · constructor <;> decide
  · constructor <;> decide
  · constructor <;> decide

/-- The same inputs at other times, with another width. -/
theorem witness_TimeDoesNotAffectDecoding :
    (given beforeLast 0x35#8 15).forgetTime =
      { given beforeLast 0x35#8 99 with lastTs := 7, config := { beforeLast.config with tsWidth := 0 } }.forgetTime ∧
    ∃ t d, step (given { beforeLast with config := { beforeLast.config with tsWidth := 0 } } 0x35#8 15) = .next t ∧
      t.event = .decoded d := ⟨by decide, _, _, rfl, rfl⟩

theorem witness_EventPortCodes :
    (valid 0 0x00#8 true).event = .none ∧
    { valid 0 0x00#8 true with event := .rejected ⟨.checksumMismatch, filler⟩ }.event = .rejected ⟨.checksumMismatch, filler⟩ ∧
    ∃ d, { valid 0 0x00#8 true with event := .decoded d }.event = .decoded d := by
  refine ⟨rfl, rfl, ⟨0, 0, 0, 0, 0, false, false, false, 0⟩, rfl⟩

theorem witness_StepKeepsInvariant :
    (∃ t, step (given beforeLast 0x35#8 15) = .next t) ∧ (∃ t, step (failing 14 0x02#8 false .unexpectedInitialSequence) = .next t) :=
  ⟨⟨_, rfl⟩, ⟨_, rfl⟩⟩

/-- Runs that differ in the last event and in the inputs after the next one. -/
theorem witness_StepReadsOnlyBlockConfigAndInput :
    (given beforeLast 0x35#8 15).toBlock = { given beforeLast 0x35#8 15 with event := .rejected ⟨.checksumMismatch, filler⟩ }.toBlock ∧
    (given beforeLast 0x35#8 15).nextInput =
      { beforeLast with stimulus := [Stimulus.feed 0x35#8 15, Stimulus.feed 0x01#8 16] }.nextInput ∧
    ∃ t, step (given beforeLast 0x35#8 15) = .next t := ⟨rfl, rfl, _, rfl⟩

end Sys2Proof.Tests
end

section
/-! SUPPORT. Totality (00_scope.md R8): the three forms an operation's answer can have, and what each leaves of the configuration
and of the inputs to come. -/

namespace Sys2Proof.Machine

/-- Every operation with a meaning answers in one of three forms: an operation of the block with its event, a computed value,
or, for `FRAME`, consecutive feed steps. -/
theorem exec_cases (i : Instr) (s : State) (hi : i ≠ .reservedSel1f) :
    (∃ r, exec i s = .next (s.put r)) ∨ (∃ v, exec i s = .next (s.report v)) ∨
      (∃ l, exec i s = .next (s.feedAll l)) := by
  cases i with
  | reservedSel1f => exact absurd rfl hi
  | xaccChk | bit | fields | flags | tsInterval => exact .inr (.inl ⟨_, rfl⟩)
  | frame => exact .inr (.inr ⟨_, rfl⟩)
  | _ => exact .inl ⟨_, rfl⟩

/-- Settles O13: no form of an answer changes the configuration or takes an input. -/
theorem everyOperationCompletesAndKeepsConfig : Obligations.EveryOperationCompletesAndKeepsConfig := by
  intro i s hi
  rcases exec_cases i s hi with ⟨r, h⟩ | ⟨v, h⟩ | ⟨l, h⟩
  · exact ⟨_, h, s.put_config r, s.put_stimulus r⟩
  · exact ⟨_, h, s.report_config v, s.report_stimulus v⟩
  · exact ⟨_, h, s.feedAll_config l, s.feedAll_stimulus l⟩

/-- Settles O12: a step is the block's step on the next input, which is a total function (`step_eq`). -/
theorem everyStepCompletes : Obligations.EveryStepCompletes := fun s => ⟨_, step_eq s⟩

end Sys2Proof.Machine
end

section
/-! SUPPORT. The invariant of 10_state.md R21: it holds wherever a frame starts cleanly, and it is kept by a byte that passes its
check, by one that fails it under COLLECT, by one of an invalid frame, and by the end of a frame. A step is one of these, IDLE or
RESET. -/

namespace Sys2Proof.Machine

/-- At the start of a frame with nothing pending, only the buffer's form and the range of `last_ts` are left to ask. -/
theorem State.AtFrameStart.inv {s : State} (ha : s.AtFrameStart) (he : s.err = .none) (hw : s.raw.wf = true)
    (ht : s.lastTs < 2 ^ s.config.tsWidth) : s.Inv where
  rawWf := hw
  lastTsFits := ht
  errIff := by simp [he, ha.frameOk]
  accIsXor _ := by rw [ha.acc, ha.cursor]; rfl
  magic0 _ h := by simp [ha.cursor] at h
  magic1 _ h := by simp [ha.cursor] at h
  syncedInside _ h := by simp [ha.cursor] at h
  terminateOk _ := ha.frameOk
  freshOk _ := ha.frameOk
  seqErrUnsynced h := by simp [he] at h

/-- The invariant speaks of the seven elements and the configuration only. -/
theorem State.Inv.congr {s t : State} (hs : s.Inv) (hb : t.toBlock = s.toBlock) (hc : t.config = s.config) : t.Inv := by
  obtain ⟨b, c, _, _, _⟩ := s
  obtain ⟨_, _, _, _, _⟩ := t
  obtain rfl : _ = b := hb
  obtain rfl : _ = c := hc
  exact { hs with }

/-- The epilogue leaves the start of a frame, whatever the event (42_end_of_frame.md R116). -/
theorem State.put_epilogue_inv (s : State) {u : Block} (hw : u.raw.wf = true) (now : Nat) (ev : FrameEvent) :
    (s.put (u.epilogue s.config now, ev)).Inv :=
  State.AtFrameStart.inv ⟨rfl, rfl, rfl⟩ rfl hw (stamp_lt s.config now)

/-- RESET leaves the start of a frame (10_state.md R22). -/
theorem State.put_reset_inv (s : State) (now : Nat) : (s.put (Block.reset s.config now).silent).Inv :=
  State.AtFrameStart.inv ⟨rfl, rfl, rfl⟩ rfl (Memory.wf_ofFrame s.config.rawInit) (stamp_lt s.config now)

section Advance

variable {s : State} {b : Byte}

/-- A byte that passes its check extends the frame in progress by one (R72 to R85). -/
theorem State.Inv.put_passes (hs : s.Inv) (hk : s.cursor ≠ 14) (hf : s.frameOk = true) (hc : s.failsAt s.cursor b = false) :
    (s.put ({ s.toBlock with
      raw := s.raw.write s.cursor.val b
      acc := s.acc ^^^ b
      cursor := s.cursor + 1
      synced := s.synced || decide (s.cursor.val = 2) }, .none)).Inv := by
  have hsucc := Offset.succ_val s.cursor hk
  have herr : s.err = .none := hs.errIff.mpr hf
  have hread (a : Offset) : (s.store s.cursor b).rawAt a = if a = s.cursor then b else s.rawAt a :=
    s.store_rawAt s.cursor a b hs.rawWf
  simp only [Block.failsAt, Bool.or_eq_false_iff, Bool.and_eq_false_imp, decide_eq_true_eq, decide_eq_false_iff_not,
    not_not] at hc
  obtain ⟨⟨hc0, hc1⟩, -⟩ := hc
  exact {
    rawWf := Memory.wf_write s.raw s.cursor b hs.rawWf
    lastTsFits := hs.lastTsFits
    errIff := hs.errIff
    accIsXor := fun _ => by
      show s.acc ^^^ b = (s.raw.write s.cursor.val b).xorBelow (s.cursor + 1).val
      rw [hsucc, Memory.xorBelow_succ_write _ _ _ hs.rawWf, hs.accIsXor hf]
    magic0 := fun _ _ => by
      refine (hread 0).trans ?_
      split_ifs with h
      · exact hc0 (by rw [← h]; rfl)
      · exact hs.magic0 hf (by simp only [Fin.ext_iff, Fin.val_zero] at h; omega)
    magic1 := fun _ h2 => by
      replace h2 : 2 ≤ (s.cursor + 1).val := h2
      refine (hread 1).trans ?_
      split_ifs with h
      · exact hc1 (by rw [← h]; rfl)
      · exact hs.magic1 hf (by simp only [Fin.ext_iff, Fin.val_one] at h; omega)
    syncedInside := fun _ h3 => by
      replace h3 : 3 ≤ (s.cursor + 1).val := h3
      show (s.synced || decide (s.cursor.val = 2)) = true
      by_cases h : s.cursor.val = 2
      · simp [h]
      · simp [hs.syncedInside hf (by omega)]
    terminateOk := fun _ => hf
    freshOk := fun _ => hf
    seqErrUnsynced := fun h => by simp [herr] at h }

/-- A frame that goes on invalid under COLLECT keeps what is left of the invariant, if the reason recorded is one that the mode
allows (R89). -/
theorem State.Inv.put_invalid (hs : s.Inv) (hk : s.cursor ≠ 14) (hp : s.config.policy = .collect) {e : PendingErr}
    (he : e ≠ .none) (hseq : e = .unexpectedInitialSequence → s.synced = false) :
    (s.put ({ s.toBlock with
      raw := s.raw.write s.cursor.val b
      cursor := s.cursor + 1
      frameOk := false
      err := e }, .none)).Inv where
  rawWf := Memory.wf_write s.raw s.cursor b hs.rawWf
  lastTsFits := hs.lastTsFits
  errIff := by simp [he]
  accIsXor := by simp
  magic0 := by simp
  magic1 := by simp
  syncedInside := by simp
  terminateOk h := by simp [hp] at h
  freshOk h := absurd ((Offset.succ_val s.cursor hk).symm.trans h) (Nat.succ_ne_zero _)
  seqErrUnsynced := hseq

end Advance

theorem failReason_ne_none (k : Offset) : failReason k ≠ .none := by unfold failReason; split <;> simp

/-- A failing check reports the sequence only while AwaitingFirstFrame (60_exceptions.md R152). -/
theorem Block.synced_of_failsAt {s : Block} {k : Offset} {b : Byte} (hc : s.failsAt k b = true)
    (he : failReason k = .unexpectedInitialSequence) : s.synced = false := by
  have hk : k.val = 2 := by
    by_contra h
    simp [failReason, h] at he
  simp only [Block.failsAt, hk, OfNat.ofNat_ne_zero, OfNat.ofNat_ne_one, decide_false, Bool.false_and, Bool.false_or,
    Bool.and_eq_true, Bool.not_eq_true'] at hc
  exact hc.1.2

/-- Every case of a feed step keeps the invariant. -/
theorem State.Inv.feed {s : State} (hs : s.Inv) (b : Byte) (now : Nat) : (s.feed b now).Inv := by
  have hw : (s.store s.cursor b).raw.wf = true := Memory.wf_write s.raw s.cursor b hs.rawWf
  show (s.put (s.feedAt s.config s.cursor b now)).Inv
  rcases s.feedAt_cases s.config s.cursor b now with
    ⟨hk, hf, hc, h⟩ | ⟨-, -, -, -, h⟩ | ⟨hk, -, hc, hp, h⟩ | ⟨hk, hf, hp, h⟩ | ⟨-, h⟩
  case inl => rw [h]; exact hs.put_passes hk hf hc
  case inr.inl => rw [h]; exact s.put_epilogue_inv hw now _
  case inr.inr.inl => rw [h]; exact hs.put_invalid hk hp (failReason_ne_none _) (Block.synced_of_failsAt hc)
  case inr.inr.inr.inl =>
    have he : s.err ≠ .none := fun e => by simp [hs.errIff.mp e] at hf
    rw [h, hf]
    exact hs.put_invalid hk hp he hs.seqErrUnsynced
  case inr.inr.inr.inr =>
    obtain ⟨ev, -, hev⟩ := (s.store s.cursor b).endOfFrame_epilogue s.config now
    rw [h, hev]
    exact s.put_epilogue_inv hw now ev

/-- Settles O58: RESET, FEED and IDLE each keep the invariant. -/
theorem stepKeepsInvariant : Obligations.StepKeepsInvariant := by
  intro s t hs h
  rw [step_eq, Block.step] at h
  obtain rfl := Host.Outcome.next.inj h
  have hs' : s.takeInput.Inv := hs.congr rfl rfl
  split_ifs
  · exact s.takeInput.put_reset_inv s.nextInput.now
  · exact hs'.feed s.nextInput.data s.nextInput.now
  · exact hs'.congr rfl rfl

/-- Settles O57: the machine is built at the start of a frame. -/
theorem resetHasInvariant : Obligations.ResetHasInvariant :=
  State.AtFrameStart.inv ⟨rfl, rfl, rfl⟩ rfl rfl (Nat.two_pow_pos _)

end Sys2Proof.Machine
end

section
/-! SUPPORT. The state after reset, the frame of a feed step, the port `raw_out`, and what a step reads. -/

namespace Sys2Proof.Machine

/-- The RAW_INIT of `State.reset` is what a buffer without cells reads as (log entry 2). -/
theorem resetConfig_rawInit (k : Offset) : resetConfig.rawInit[k] = Memory.unlisted := by
  fin_cases k <;> rfl

/-- Settles O9: each value is the one `State.reset` is built with, and RAW_INIT is what its empty buffer reads as. -/
theorem resetStateValues : Obligations.ResetStateValues :=
  ⟨rfl, rfl, rfl, rfl, rfl, rfl, rfl, rfl, rfl, fun k => (resetConfig_rawInit k).symm⟩

/-- Only position 2 writes `synced` (10_state.md R15). -/
theorem Block.feedAt_synced (s : Block) (c : Config) (k : Offset) (b : Byte) (now : Nat) (hk : k ≠ 2) :
    (s.feedAt c k b now).1.synced = s.synced := by
  have hk2 : k.val ≠ 2 := fun h => hk (Fin.ext h)
  rcases s.feedAt_cases c k b now with ⟨-, -, -, h⟩ | ⟨-, -, -, -, h⟩ | ⟨-, -, -, -, h⟩ | ⟨-, -, -, h⟩ | ⟨-, h⟩
  · simp [h, hk2]
  · simp [h]
  · simp [h]
  · simp [h]
  · obtain ⟨ev, -, hev⟩ := (s.store k b).endOfFrame_epilogue c now
    simp [h, hev]

/-- A feed step that does not end the frame keeps `last_ts` (44_timing.md R142). -/
theorem Block.feedAt_lastTs (s : Block) (c : Config) (k : Offset) (b : Byte) (now : Nat)
    (he : (s.feedAt c k b now).2 = .none) : (s.feedAt c k b now).1.lastTs = s.lastTs := by
  rcases s.feedAt_cases c k b now with ⟨-, -, -, h⟩ | ⟨-, -, -, -, h⟩ | ⟨-, -, -, -, h⟩ | ⟨-, -, -, h⟩ | ⟨-, h⟩
  · rw [h]
  · simp [h] at he
  · rw [h]
  · rw [h]
  · obtain ⟨ev, hne, hev⟩ := (s.store k b).endOfFrame_epilogue c now
    rw [h, hev] at he
    exact absurd he hne

/-- Settles O22: the frame of `Block.feedAt`, element by element. -/
theorem feedFrame : Obligations.FeedFrame := by
  intro s t k b now hw h
  rw [exec_feedInstr] at h
  obtain rfl := Host.Outcome.next.inj h
  have hraw (a : Offset) := s.feedAt_rawAt s.config k b now a hw
  exact ⟨(hraw k).trans (if_pos rfl), fun a ha => (hraw a).trans (if_neg ha), rfl, rfl,
    s.feedAt_synced s.config k b now, s.feedAt_lastTs s.config k b now⟩

/-- Without the lowest byte of a concatenation, byte `i + 1` is byte `i`. -/
theorem extractLsb'_append_byte {w : Nat} (x : BitVec w) (b : Byte) (i : Nat) :
    (x ++ b).extractLsb' (8 * (i + 1)) 8 = x.extractLsb' (8 * i) 8 :=
  BitVec.extractLsb'_append_eq_of_le (by omega)

/-- Settles O56: the lower bytes of the concatenation are dropped one by one until `raw[k]` is the lowest. -/
theorem rawOutShowsEveryByte : Obligations.RawOutShowsEveryByte := by
  intro s k
  unfold State.rawOut
  fin_cases k
  all_goals
    simp only [extractLsb'_append_byte, Nat.mul_zero, BitVec.extractLsb'_append_eq_right, BitVec.extractLsb'_eq_self]
    rfl

/-- A step of a run is the block's own step on the seven elements, the configuration and the next input (20_memory.md R40). -/
theorem step_eq_blockStep {s t : State} (h : step s = .next t) :
    (t.toBlock, t.event) = s.toBlock.step s.config s.nextInput ∧ t.config = s.config ∧ t.stimulus = s.stimulus.tail := by
  rw [step_eq] at h
  obtain rfl := Host.Outcome.next.inj h
  exact ⟨rfl, rfl, rfl⟩

/-- Settles O59: two runs that agree on what the block's own step takes get the same result from it. -/
theorem stepReadsOnlyBlockConfigAndInput : Obligations.StepReadsOnlyBlockConfigAndInput := by
  refine ⟨fun s t => step_eq_blockStep, fun s₁ s₂ t₁ t₂ hb hc hx h₁ h₂ => ?_⟩
  have hsame : (t₁.toBlock, t₁.event) = (t₂.toBlock, t₂.event) := by
    rw [(step_eq_blockStep h₁).1, (step_eq_blockStep h₂).1, hb, hc, hx]
  exact Prod.mk.inj hsame

end Sys2Proof.Machine
end

section
/-! SUPPORT. Selection (30_encoding.md R57, R58, R60): the encoder and the decoder agree, the SEL6 words and the rows of their
table, the EOFSEL4 words, the operation a step performs, and the codes on the event ports (R63). -/

namespace Sys2Proof

theorem decodeWire15_bytes (f : WireFrame) (t0 d : Nat) : decodeWire15 f.bytes t0 d = .ok (.frame f t0 d) := by
  simp [decodeWire15, WireFrame.bytes]

theorem decodeEofSel4Sub_bit {i : Nat} (hi : i < 8) (v : Byte) (now : Nat) :
    decodeEofSel4Sub .bit 0x9#4 v i now = .ok (.bit v i) := by
  simp [decodeEofSel4Sub, hi]

/-- Settles O3: only `BIT` needs its operand well-formed (D26), and only `FRAME` has operands in its word. The other thirty words are
literals, which the decoder computes on. -/
theorem decodeEncodeRoundTrip : Obligations.DecodeEncodeRoundTrip := by
  intro w i hi
  cases i with
  | bit v n => exact decodeEofSel4Sub_bit (of_decide_eq_true hi) v 0
  | frame f t0 d => exact decodeWire15_bytes f t0 d
  | _ => rfl

/-- Settles O2: twelve closed words, on which the decoder computes. -/
theorem specWordsDecode : Obligations.SpecWordsDecode := by
  unfold Obligations.SpecWordsDecode
  decide

/-- The rows of the SEL6 table: `RESET`, `IDLE`, and one row for each value of the four cursor bits. -/
def sel6Rows : List TableRow :=
  ⟨.sel6, 0x20, 0x20⟩ :: ⟨.sel6, 0x30, 0x00⟩ :: (List.range 16).map fun k => ⟨.sel6, 0x3F, 0x10 + k⟩

theorem Instr.row_mem_sel6Rows (i : Instr) (h : i.row.format = .sel6) : i.row ∈ sel6Rows := by
  cases i
  all_goals simp only [Instr.row, reduceCtorEq] at h
  all_goals exact List.elem_iff.mp rfl

/-- The operands do not select the row. -/
theorem decodeSel6_row_eq (sel : BitVec 6) (b : Byte) (now : Nat) :
    (decodeSel6 sel b now).row = (decodeSel6 sel 0x00#8 0).row := by
  unfold decodeSel6
  split_ifs
  · rfl
  · rfl
  · split <;> rfl

/-- All 64 words against the eighteen rows: a word meets the mask and match of its own row and of no other. -/
theorem sel6Rows_meets_iff : ∀ sel : BitVec 6, ∀ r ∈ sel6Rows,
    sel.toNat &&& r.mask = r.value ↔ (decodeSel6 sel 0x00#8 0).row = r := by
  decide

theorem decodeSel6_row_format (sel : BitVec 6) (b : Byte) (now : Nat) : (decodeSel6 sel b now).row.format = .sel6 := by
  rw [decodeSel6_row_eq]
  revert sel
  decide

/-- A word meets the row of a SEL6 operation exactly when it selects an operation of that row. -/
theorem decodeSel6_row_eq_iff (sel : BitVec 6) (b : Byte) (now : Nat) {i : Instr} (hi : i.row.format = .sel6) :
    (decodeSel6 sel b now).row = i.row ↔ sel.toNat &&& i.row.mask = i.row.value := by
  rw [decodeSel6_row_eq, sel6Rows_meets_iff sel _ (i.row_mem_sel6Rows hi)]

/-- Settles O4: both halves are directions of `decodeSel6_row_eq_iff`. -/
theorem selectorWordsSelectOneRow : Obligations.SelectorWordsSelectOneRow := by
  intro sel b now
  have hformat := decodeSel6_row_format sel b now
  exact ⟨⟨hformat, (decodeSel6_row_eq_iff sel b now hformat).mp rfl⟩,
    fun i hi h => (decodeSel6_row_eq_iff sel b now hi).mpr h⟩

theorem decode_eofSel4 (sel : BitVec 4) (now : Nat) : decode (.eofSel4 sel now) = decodeEofSel4 sel now := rfl

/-- Settles O5, along the table of R58: six words by their rows, and the ten that are left. -/
theorem endOfFrameWordsSelectOneRow : Obligations.EndOfFrameWordsSelectOneRow := by
  intro sel now
  rw [decode_eofSel4]
  unfold decodeEofSel4
  split
  case h_7 h2 h3 h4 h5 h8 h9 =>
    have hlt : sel.toNat < 16 := sel.isLt
    refine .inr ⟨rfl, ?_⟩
    simp only [List.mem_cons, List.not_mem_nil, or_false]
    simp only [imp_false] at h2 h3 h4 h5 h8 h9
    omega
  all_goals
    next h => exact .inl ⟨_, rfl, rfl, by simp [h, Instr.row]⟩

end Sys2Proof

namespace Sys2Proof.Machine

/-- Settles O1: the next operation is the one decoded from the next input, or IDLE without inputs. -/
theorem stepRunsDecodedInstruction : Obligations.StepRunsDecodedInstruction := by
  refine ⟨fun s x rest i hs hi => ?_, fun s hs => ?_⟩
  · have hx : s.nextInput = x := by rw [State.nextInput, hs]; rfl
    obtain rfl := Except.ok.inj hi
    rw [step, State.nextInstr, hx, State.takeInput, hs]
    rfl
  · have hx : s.nextInput = Stimulus.idle := by rw [State.nextInput, hs]; rfl
    have htake : s.takeInput = s := by rw [State.takeInput, hs, List.tail_nil, ← hs]
    rw [step, State.nextInstr, hx, htake, Stimulus.idle, decodeSel6_idle]

/-- The six bits of a word are `rst`, `in_valid` and the cursor (R57, D24). -/
theorem selector_testBit {w : Nat} (h : w % 16 < 15) :
    selector (w.testBit 5) (w.testBit 4) ⟨w % 16, h⟩ = BitVec.ofNat 6 w := by
  have hmod : w % 16 = w % 2 ^ 4 := rfl
  refine BitVec.eq_of_getLsbD_eq fun i hi => ?_
  simp only [selector, BitVec.getLsbD_append, BitVec.getLsbD_ofBool, BitVec.getLsbD_ofNat, hmod, Nat.testBit_mod_two_pow]
  interval_cases i <;> simp

/-- Settles O6: placing a word and forming the selector of the next step are inverse. -/
theorem placedWordIsNextInstruction : Obligations.PlacedWordIsNextInstruction := by
  intro s w hw h15
  have h : w % 16 < 15 := by omega
  have hcursor : cursorFromBits s.cursor (w % 16) = ⟨w % 16, h⟩ := dif_pos h
  have hnext : (s.withFetchWord 8 w).nextInstr =
      decodeSel6 (selector (w.testBit 5) (w.testBit 4) (cursorFromBits s.cursor (w % 16))) 0x00#8 0 := rfl
  rw [hnext, hcursor, selector_testBit h]
  exact if_pos hw

/-- The reserved operation is selected by the word 011111 only. -/
theorem decodeSel6_eq_reserved {sel : BitVec 6} {b : Byte} {now : Nat} (h : decodeSel6 sel b now = .reservedSel1f) :
    sel = 0b011111#6 := by
  have hmeets : sel.toNat &&& 0x3F = 0x1F := (decodeSel6_row_eq_iff sel b now (i := .reservedSel1f) rfl).mp (by rw [h])
  have hword : ∀ sel : BitVec 6, sel.toNat &&& 0x3F = 0x1F → sel = 0b011111#6 := by decide
  exact hword sel hmeets

/-- The cursor never holds 15 (10_state.md R12). -/
theorem selector_ne_reserved : ∀ (rst v : Bool) (k : Offset), selector rst v k ≠ 0b011111#6 := by
  decide

/-- Settles O7: the one word that selects the reserved operation is formed by no cursor. -/
theorem reservedSelectorStopsAndIsNeverSelected : Obligations.ReservedSelectorStopsAndIsNeverSelected :=
  ⟨fun _ => rfl, selector_ne_reserved, fun _ h => selector_ne_reserved _ _ _ (decodeSel6_eq_reserved h)⟩

/-- Settles O55: the ports are functions of the event, one case each. -/
theorem eventPortCodes : Obligations.EventPortCodes := by
  intro s
  refine ⟨fun h => ?_, fun d h => ?_, fun e h => ?_, ?_⟩
  · simp [State.evtKind, State.evtReason, State.fieldPorts, h]
  · simp [State.evtKind, State.evtReason, State.fieldPorts, h]
  · have hreason : s.evtReason = e.reason.code := by simp [State.evtReason, h]
    refine ⟨by simp [State.evtKind, h], by simp [State.fieldPorts, h], ?_⟩
    rw [hreason]
    refine ⟨?_, ?_, ?_⟩ <;> intro hr <;> rw [hr] <;> rfl
  · unfold State.evtKind
    split <;> simp

end Sys2Proof.Machine
end

section
/-! SUPPORT. The last byte of a frame in progress, and the wire frames that are decoded: the five conditions of
30_encoding.md R62, under both policies. -/

namespace Sys2Proof.Machine

/-- The XOR of the first `n` bytes of `g`. -/
def xorUpTo (g : Nat → Byte) : Nat → Byte
  | 0 => 0x00#8
  | n + 1 => xorUpTo g n ^^^ g n

theorem xorUpTo_fourteen (g : Nat → Byte) :
    xorUpTo g 14 = g 0 ^^^ g 1 ^^^ g 2 ^^^ g 3 ^^^ g 4 ^^^ g 5 ^^^ g 6 ^^^ g 7 ^^^ g 8 ^^^ g 9 ^^^ g 10 ^^^ g 11 ^^^ g 12 ^^^
      g 13 := by
  simp [xorUpTo]

theorem Memory.xorBelow_eq_xorUpTo (m : Memory) (g : Nat → Byte) :
    ∀ n, (∀ k < n, m.read k = g k) → m.xorBelow n = xorUpTo g n
  | 0, _ => rfl
  | n + 1, h => by
    rw [Memory.xorBelow, xorUpTo, Memory.xorBelow_eq_xorUpTo m g n fun k hk => h k (by omega), h n (by omega)]

theorem Memory.snapshot_toList (m : Memory) : m.snapshot.toList = (List.range 15).map m.read := rfl

section LastByte

variable {s u : State} {g : Nat → Byte}

theorem InProgress.acc_eq_xorUpTo (hg : InProgress s u g 14) : u.acc = xorUpTo g 14 :=
  hg.acc.trans (Memory.xorBelow_eq_xorUpTo u.raw g 14 fun k hk => hg.bytes ⟨k, by omega⟩ hk)

/-- With byte 14 stored, RawFrame holds the whole frame and nothing stale. -/
theorem InProgress.store_csum_read (hg : InProgress s u g 14) {k : Nat} (hk : k < 15) :
    (u.store 14 (g 14)).raw.read k = g k := by
  refine (Memory.read_write_wf u.raw 14 (g 14) k hg.rawWf).trans ?_
  split_ifs with h
  · rw [h]
  · exact hg.bytes ⟨k, hk⟩ (by simp only; omega)

/-- An accepted frame leaves the start of the next (R116). -/
theorem State.put_accept_atFrameStart (s : State) (u : Block) (now : Nat) : (s.put (u.accept s.config now)).AtFrameStart :=
  ⟨rfl, rfl, rfl⟩

/-- The fifteenth byte when every check passed: the checksum alone decides (R86, R102). -/
theorem InProgress.feed_csum (hg : InProgress s u g 14) (now : Nat) :
    u.feed (g 14) now = u.put (if xorUpTo g 14 ≠ 0x00#8 ∧ g 14 = xorUpTo g 14 then (u.store 14 (g 14)).accept u.config now
      else (u.store 14 (g 14)).reject u.config .checksumMismatch now) := by
  have hcur : u.cursor = 14 := Fin.ext hg.cursor
  have hok : (u.store 14 (g 14)).frameOk = true := hg.frameOk
  have hfeed : u.toBlock.feed u.config (g 14) now = (u.store 14 (g 14)).endOfFrame u.config now := by
    rw [Block.feed, hcur, Block.feedAt_csum]
  rw [State.feed, hfeed, Block.endOfFrame_valid _ _ _ hok, Block.csumOk_store _ _ hg.rawWf, hg.acc_eq_xorUpTo]
  simp only [decide_eq_true_eq, eq_comm (a := g 14)]

end LastByte

/-- A frame that goes on invalid, with a reason pending, at offset `n` (R89). -/
structure InvalidAt (u : State) (n : Nat) : Prop where
  cursor : u.cursor.val = n
  frameOk : u.frameOk = false
  err : u.err ≠ .none

/-- A byte without an event passed its check, or the frame goes on invalid. -/
theorem State.feed_silent_cases {u : State} {b : Byte} {now : Nat} (hu : u.frameOk = false → u.err ≠ .none)
    (he : (u.feed b now).event = .none) :
    (u.frameOk = true ∧ u.failsAt u.cursor b = false) ∨ InvalidAt (u.feed b now) (u.cursor.val + 1) := by
  have hput : u.feed b now = u.put (u.feedAt u.config u.cursor b now) := rfl
  rw [hput] at he ⊢
  rcases u.feedAt_cases u.config u.cursor b now with
    ⟨-, hf, hc, -⟩ | ⟨-, -, -, -, h⟩ | ⟨hk, -, -, -, h⟩ | ⟨hk, hf, -, h⟩ | ⟨-, h⟩
  · exact .inl ⟨hf, hc⟩
  · rw [h] at he
    simp at he
  · rw [h]
    exact .inr ⟨Offset.succ_val _ hk, rfl, failReason_ne_none _⟩
  · rw [h]
    exact .inr ⟨Offset.succ_val _ hk, hf, hu hf⟩
  · obtain ⟨ev, hne, hev⟩ := (u.store u.cursor b).endOfFrame_epilogue u.config now
    rw [h, hev] at he
    exact absurd he hne

theorem InvalidAt.feed {u : State} {n : Nat} (hu : InvalidAt u n) {b : Byte} {now : Nat}
    (he : (u.feed b now).event = .none) : InvalidAt (u.feed b now) (n + 1) := by
  rcases State.feed_silent_cases (fun _ => hu.err) he with ⟨hf, -⟩ | hi
  · simp [hu.frameOk] at hf
  · rwa [hu.cursor] at hi

/-- The validity gate comes before the checksum test (R111). -/
theorem InvalidAt.feed_event_ne_decoded {u : State} (hu : InvalidAt u 14) (b : Byte) (now : Nat) (d : DecodedFrame) :
    (u.feed b now).event ≠ .decoded d := by
  have hcur : u.cursor = 14 := Fin.ext hu.cursor
  have hev : (u.feed b now).event = ((u.store 14 b).endOfFrame u.config now).2 := by
    rw [State.feed, State.put_event, Block.feed, hcur, Block.feedAt_csum]
  rw [hev]
  rcases (u.store 14 b).endOfFrame_cases u.config now with ⟨-, -, h⟩ | ⟨-, -, h⟩ | ⟨-, -, h⟩ | ⟨hv, -, -⟩
  case inr.inr.inr => exact absurd ⟨hu.frameOk, hu.err⟩ hv
  all_goals simp [h]

theorem State.passes_iff {s : State} {g : Nat → Byte} {n : Nat} (hn : 2 < n) :
    s.Passes g n ↔ g 0 = 0x01#8 ∧ g 1 = 0x03#8 ∧ (s.synced = true ∨ g 2 = 0x02#8) := by
  simp [State.Passes, hn, show 0 < n by omega, show 1 < n by omega]

theorem State.Passes.mono {s : State} {g : Nat → Byte} {m n : Nat} (hp : s.Passes g n) (hm : m ≤ n) : s.Passes g m :=
  ⟨fun h => hp.1 (by omega), fun h => hp.2.1 (by omega), fun h => hp.2.2 (by omega)⟩

/-- One more byte that passes its check, where the earlier ones did. -/
theorem InProgress.passes_succ {s u : State} {g : Nat → Byte} {n : Nat} (hg : InProgress s u g n) (hp : s.Passes g n)
    (hc : u.failsAt u.cursor (g n) = false) : s.Passes g (n + 1) := by
  simp only [Block.failsAt, hg.cursor, hg.synced, Bool.or_eq_false_iff, Bool.and_eq_false_imp, decide_eq_true_eq,
    decide_eq_false_iff_not, not_not] at hc
  obtain ⟨⟨h0, h1⟩, h2⟩ := hc
  obtain ⟨p0, p1, p2⟩ := hp
  refine ⟨fun _ => ?_, fun _ => ?_, fun _ => ?_⟩
  · rcases Nat.eq_zero_or_pos n with rfl | hn
    · exact h0 rfl
    · exact p0 hn
  · rcases eq_or_ne n 1 with rfl | hn
    · exact h1 rfl
    · exact p1 (by omega)
  · rcases eq_or_ne n 2 with rfl | hn
    · simpa [or_iff_not_imp_left] using h2
    · exact p2 (by omega)

section FromFrameStart

variable (s : State) (g : Nat → Byte) (time : Nat → Nat) (ha : s.AtFrameStart) (hw : s.raw.wf = true)
include ha hw

/-- Up to fourteen bytes without an event: all passed their checks, or the frame is invalid (which only COLLECT allows). -/
theorem State.passes_or_invalidAt (n : Nat) (hn : n ≤ 14)
    (he : ∀ m, 1 ≤ m → m ≤ n → (s.fed g time m).event = .none) : s.Passes g n ∨ InvalidAt (s.fed g time n) n := by
  induction n with
  | zero => exact .inl ⟨by simp, by simp, by simp⟩
  | succ n ih =>
    have hev : ((s.fed g time n).feed (g n) (time n)).event = .none := he (n + 1) (by omega) le_rfl
    rcases ih (by omega) fun m h1 hm => he m h1 (by omega) with hp | hi
    · have hg := s.fed_inProgress g time ha hw n (by omega) hp
      rcases State.feed_silent_cases (fun hf => absurd hg.frameOk (by simp [hf])) hev with ⟨-, hc⟩ | hi
      · exact .inl (hg.passes_succ hp hc)
      · rw [hg.cursor] at hi
        exact .inr hi
    · exact .inr (hi.feed hev)

/-- Fifteen bytes are decoded on the fifteenth, with no event before, exactly when they pass their checks and byte 14 is
their XOR, which is not zero (R62). -/
theorem State.fed_decoded_iff :
    ((∀ n, 1 ≤ n → n ≤ 14 → (s.fed g time n).event = .none) ∧ ∃ d, (s.fed g time 15).event = .decoded d) ↔
      s.Passes g 14 ∧ xorUpTo g 14 ≠ 0x00#8 ∧ g 14 = xorUpTo g 14 := by
  constructor
  · rintro ⟨hnone, d, hd⟩
    rcases s.passes_or_invalidAt g time ha hw 14 le_rfl hnone with hp | hi
    · refine ⟨hp, ?_⟩
      by_contra hx
      rw [State.fed, (s.fed_inProgress g time ha hw 14 le_rfl hp).feed_csum, if_neg hx] at hd
      simp at hd
    · exact absurd hd (hi.feed_event_ne_decoded _ _ d)
  · rintro ⟨hp, hx⟩
    refine ⟨fun n h1 hn => (s.fed_inProgress g time ha hw n hn (hp.mono hn)).event h1, ?_⟩
    rw [State.fed, (s.fed_inProgress g time ha hw 14 le_rfl hp).feed_csum, if_pos hx]
    exact ⟨_, rfl⟩

end FromFrameStart

theorem State.fed_stimulus (s : State) (g : Nat → Byte) (time : Nat → Nat) (l : List Stimulus) (n : Nat) :
    ({ s with stimulus := l }).fed g time n = { s.fed g time n with stimulus := l } := by
  induction n with
  | zero => rfl
  | succ n ih => rw [State.fed, ih]; rfl

/-- The inputs that feed the first `n` bytes of `g`. -/
def feeds (g : Nat → Byte) (time : Nat → Nat) (n : Nat) : List Stimulus :=
  (List.range n).map fun k => Stimulus.feed (g k) (time k)

theorem run_fed (s : State) (g : Nat → Byte) (time : Nat → Nat) (n : Nat) (rest : List Stimulus) :
    core.run n { s with stimulus := feeds g time n ++ rest } = .next { s.fed g time n with stimulus := rest } := by
  have hr := run_feeds s ((List.range n).map fun k => (g k, time k)) rest
  rwa [State.feedAll_eq_fed, State.fed_stimulus, List.length_map, List.length_range, List.map_map] at hr

/-- The event of the `m`-th of `n` feed steps. -/
theorem run_event_iff {s : State} {g : Nat → Byte} {time : Nat → Nat} {m n : Nat} {rest : List Stimulus}
    (h : s.stimulus = feeds g time n ++ rest) (hmn : m ≤ n) (ev : FrameEvent) :
    (∃ t, core.run m s = .next t ∧ t.event = ev) ↔ (s.fed g time m).event = ev := by
  obtain ⟨j, rfl⟩ := Nat.exists_eq_add_of_le hmn
  obtain ⟨l, hl⟩ : ∃ l, s.stimulus = feeds g time m ++ l := by
    rw [feeds, List.range_add, List.map_append, List.append_assoc] at h
    exact ⟨_, h⟩
  have hr := run_fed s g time m l
  rw [← hl] at hr
  rw [show core.run m s = _ from hr]
  exact ⟨fun ⟨t, ht, he⟩ => by rw [← he, ← Host.Outcome.next.inj ht], fun he => ⟨_, rfl, he⟩⟩

/-- A function of the fifteen offsets, read at a number. -/
def atNat {α : Type} (f : Fin 15 → α) (k : Nat) : α := f (Fin.ofNat 15 k)

/-- Settles O51: R62 for the runs of `feed`, read off a run's steps. -/
theorem acceptedFramesCharacterised : Obligations.AcceptedFramesCharacterised := by
  intro s f at_ rest ha hw hs x
  have hs' : s.stimulus = feeds (atNat f) (atNat at_) 15 ++ rest := hs
  have hnone : (∀ n, 1 ≤ n → n ≤ 14 → ∃ t, core.run n s = .next t ∧ t.event = .none) ↔
      ∀ n, 1 ≤ n → n ≤ 14 → (s.fed (atNat f) (atNat at_) n).event = .none :=
    forall₃_congr fun n _ hn => run_event_iff hs' (by omega) .none
  have hdec : (∃ t d, core.run 15 s = .next t ∧ t.event = .decoded d) ↔
      ∃ d, (s.fed (atNat f) (atNat at_) 15).event = .decoded d :=
    exists_comm.trans (exists_congr fun d => run_event_iff hs' le_rfl (.decoded d))
  have hx : xorUpTo (atNat f) 14 = x := xorUpTo_fourteen (atNat f)
  rw [hnone, hdec, s.fed_decoded_iff _ _ ha hw, hx, State.passes_iff (by omega), and_assoc, and_assoc]
  rfl

end Sys2Proof.Machine
end

section
/-! SUPPORT. FRAME (30_encoding.md R64): the feed steps of its bytes, and the frame that is accepted (R62). -/

namespace Sys2Proof.Machine

/-- Byte `k` of a wire frame. -/
def byteAt (f : WireFrame) (k : Nat) : Byte := f.bytes.getD k 0x00#8

/-- The time of byte `k`, which is byte number `k + 1` (R64, D20). -/
def timeAt (t0 d k : Nat) : Nat := t0 + (k + 1) * d

theorem timed_eq_map_range (t0 d : Nat) (l : List Byte) :
    timed t0 d l = (List.range l.length).map fun k => (l.getD k 0x00#8, timeAt t0 d k) := by
  induction l generalizing t0 with
  | nil => rfl
  | cons b l ih =>
    have htime (k : Nat) : timeAt (t0 + d) d k = timeAt t0 d (k + 1) := by simp only [timeAt]; ring
    simp only [timed, ih, htime, List.length_cons, List.range_succ_eq_map, List.map_cons, List.map_map]
    simp [timeAt, Function.comp_def]

/-- FRAME feeds its fifteen bytes at their times. -/
theorem exec_frame (f : WireFrame) (t0 d : Nat) (s : State) :
    exec (.frame f t0 d) s = .next (s.fed (byteAt f) (timeAt t0 d) 15) := by
  have hfeed : s.feedAll (timed t0 d f.bytes) = s.fed (byteAt f) (timeAt t0 d) 15 := by
    rw [timed_eq_map_range]
    exact s.feedAll_eq_fed (byteAt f) (timeAt t0 d) 15
  exact congrArg Host.Outcome.next hfeed

/-- Settles O48: the inputs written out are those of `feeds`. -/
theorem frameIsFifteenFeedSteps : Obligations.FrameIsFifteenFeedSteps := by
  intro s f t0 d rest
  rw [exec_frame, State.fed_stimulus]
  refine (congrArg (fun l => core.run 15 { s with stimulus := l ++ rest }) ?_).trans (run_fed s (byteAt f) (timeAt t0 d) 15 rest)
  simp [feeds, byteAt, WireFrame.bytes, timeAt, List.range_succ, Config.magic0, Config.magic1]

theorem map_byteAt_range (f : WireFrame) : (List.range 15).map (byteAt f) = f.bytes := rfl

/-- Settles O49: the first fourteen bytes pass their checks, so the fifteenth is decided by the checksum, and RawFrame then
holds the frame's own bytes. -/
theorem frameAccepted : Obligations.FrameAccepted := by
  intro s f t0 d ha hw hsync x hx0 hcsum
  have hp : s.Passes (byteAt f) 14 := ⟨fun _ => rfl, fun _ => rfl, fun _ => hsync⟩
  have hg := s.fed_inProgress (byteAt f) (timeAt t0 d) ha hw 14 le_rfl hp
  have hx : xorUpTo (byteAt f) 14 = x := xorUpTo_fourteen (byteAt f)
  have hread (k : Offset) : ((s.fed (byteAt f) (timeAt t0 d) 14).store 14 (byteAt f 14)).rawAt k = byteAt f k :=
    hg.store_csum_read k.isLt
  refine ⟨_, exec_frame f t0 d s, ?_⟩
  rw [State.fed, hg.feed_csum, if_pos (by rw [hx]; exact ⟨hx0, hcsum⟩)]
  refine ⟨?_, State.put_accept_atFrameStart _ _ _, ?_, ?_, ?_⟩
  · simp only [State.put_event, Block.accept_snd, Block.decodedFrame_eq, hread, hg.config, Block.store_lastTs, hg.lastTs]
    rfl
  · simp [hg.synced]
  · simp [hg.config, stamp, timeAt]
  · simp only [State.put_toBlock, Block.accept_fst, Block.epilogue_raw]
    rw [Memory.snapshot_toList, ← map_byteAt_range]
    exact List.map_congr_left fun k hk => hg.store_csum_read (List.mem_range.mp hk)

end Sys2Proof.Machine
end

section
/-! SUPPORT. The fifteen positions one by one (40_frame_sync.md R72 to R86, R89): the five outcomes of a feed step as answers of
`exec`, and the check of each position. -/

namespace Sys2Proof.Machine

section Check

variable (s : Block) (b : Byte)

@[simp] theorem Block.failsAt_zero : s.failsAt 0 b = decide (b ≠ 0x01#8) := by simp [Block.failsAt]

@[simp] theorem Block.failsAt_one : s.failsAt 1 b = decide (b ≠ 0x03#8) := by simp [Block.failsAt]

@[simp] theorem Block.failsAt_two : s.failsAt 2 b = (!s.synced && decide (b ≠ 0x02#8)) := by simp [Block.failsAt]

/-- From position 3 on every byte is accepted (R75 to R86). -/
theorem Block.failsAt_of_three_le {k : Offset} (hk : 3 ≤ k.val) : s.failsAt k b = false := by
  simp [Block.failsAt, show k.val ≠ 0 by omega, show k.val ≠ 1 by omega, show k.val ≠ 2 by omega]

end Check

section Exec

variable {s : State} {k : Offset} {b : Byte} (now : Nat)

/-- A byte that passes its check before offset 14; `v` is the mode it leaves. -/
theorem exec_feed_passes {v : Bool} (hf : s.frameOk = true) (hc : s.failsAt k b = false) (hk : k ≠ 14)
    (hv : (s.synced || decide (k.val = 2)) = v) :
    exec (feedInstr k b now) s = .next { s with
      raw := s.raw.write k b, acc := s.acc ^^^ b, cursor := k + 1, synced := v, event := .none, value := .none } := by
  rw [exec_feedInstr, Block.feedAt_passes _ _ _ _ _ hf hc hk, hv]
  rfl

theorem exec_feed_fails_terminate (hf : s.frameOk = true) (hc : s.failsAt k b = true) (hp : s.config.policy = .terminate) :
    exec (feedInstr k b now) s = .next (s.put ((s.store k b).reject s.config (failReport k) now)) := by
  rw [exec_feedInstr, Block.feedAt_fails_terminate _ _ _ _ _ hf hc hp]

theorem exec_feed_fails_collect (hf : s.frameOk = true) (hc : s.failsAt k b = true) (hp : s.config.policy = .collect) :
    exec (feedInstr k b now) s = .next { s with
      raw := s.raw.write k b, cursor := k + 1, frameOk := false, err := failReason k, event := .none, value := .none } := by
  rw [exec_feedInstr, Block.feedAt_fails_collect _ _ _ _ _ hf hc hp]
  rfl

theorem exec_feedP14 : exec (.feedP14 b now) s = .next (s.put ((s.store 14 b).endOfFrame s.config now)) := by
  have hfeed : exec (.feedP14 b now) s = .next (s.put (s.feedAt s.config 14 b now)) := exec_feedInstr 14 b now s
  rw [hfeed, Block.feedAt_csum]

end Exec

/-- Settles O14: position 0 passes on 0x01 only. -/
theorem feedP0ChecksMagic0 : Obligations.FeedP0ChecksMagic0 := by
  intro s b now hf
  refine ⟨?_, fun hb hp => exec_feed_fails_terminate now hf (k := 0) (by simpa using hb) hp⟩
  rintro rfl
  exact exec_feed_passes now hf (k := 0) (by simp) (by decide) (by simp)

/-- Settles O15: position 1 passes on 0x03 only. -/
theorem feedP1ChecksMagic1 : Obligations.FeedP1ChecksMagic1 := by
  intro s b now hf
  refine ⟨?_, fun hb hp => exec_feed_fails_terminate now hf (k := 1) (by simpa using hb) hp⟩
  rintro rfl
  exact exec_feed_passes now hf (k := 1) (by simp) (by decide) (by simp)

/-- Settles O16: position 2 passes on every byte while Synchronized and on 2 while AwaitingFirstFrame, and leaves Synchronized. -/
theorem feedP2ChecksFirstSequence : Obligations.FeedP2ChecksFirstSequence := by
  intro s b now hf
  refine ⟨fun hs => ?_, ?_, fun hs hb hp => ?_⟩
  · exact exec_feed_passes now hf (k := 2) (by simp [hs]) (by decide) (by simp [hs])
  · rintro hs rfl
    exact exec_feed_passes now hf (k := 2) (by simp) (by decide) (by simp)
  · exact exec_feed_fails_terminate now hf (k := 2) (by simp [hs, hb]) hp

/-- Settles O17: no check is made from position 3 on. -/
theorem feedP3ToP13StoreAndAccumulate : Obligations.FeedP3ToP13StoreAndAccumulate := by
  intro s b now hf after
  have h (k : Offset) (hk : 3 ≤ k.val ∧ k ≠ 14) : exec (feedInstr k b now) s = .next (after k (k + 1)) :=
    exec_feed_passes now hf (s.failsAt_of_three_le b hk.1) hk.2 (by simp [show k.val ≠ 2 by omega])
  exact ⟨h 3 (by decide), h 4 (by decide), h 5 (by decide), h 6 (by decide), h 7 (by decide), h 8 (by decide),
    h 9 (by decide), h 10 (by decide), h 11 (by decide), h 12 (by decide), h 13 (by decide)⟩

/-- The store of byte 14 changes nothing that a `DecodedFrame` is made of. -/
theorem Block.decodedFrame_store (s : Block) (c : Config) (b : Byte) (now : Nat) (hw : s.raw.wf = true) :
    (s.store 14 b).decodedFrame c now = s.decodedFrame c now := by
  simp [Block.decodedFrame_eq, Block.store_rawAt _ _ _ _ hw, Fin.ext_iff]

/-- Settles O18: the frame is valid, so the checksum test on the byte just stored decides. -/
theorem feedP14DecidesByChecksum : Obligations.FeedP14DecidesByChecksum := by
  intro s b now hw hf
  rw [exec_feedP14, Block.endOfFrame_valid (s.store 14 b) _ _ hf, Block.csumOk_store _ _ hw]
  by_cases hx : s.acc ≠ 0x00#8 ∧ s.acc = b
  · rw [if_pos (decide_eq_true hx), if_pos hx, Block.accept, Block.decodedFrame_store _ _ _ _ hw, Block.decodedFrame_eq]
    rfl
  · rw [if_neg (by simpa using hx), if_neg hx]
    rfl

/-- Settles O19: the three positions with a check, each with its own reason. -/
theorem collectFailedCheckContinues : Obligations.CollectFailedCheckContinues := by
  intro s b now hf hp
  exact ⟨fun hb => exec_feed_fails_collect now hf (k := 0) (by simpa using hb) hp,
    fun hb => exec_feed_fails_collect now hf (k := 1) (by simpa using hb) hp,
    fun hs hb => exec_feed_fails_collect now hf (k := 2) (by simp [hs, hb]) hp⟩

/-- Settles O20: `Block.feedAt_invalid_collect` on a run. -/
theorem collectInvalidFrameOnlyStores : Obligations.CollectInvalidFrameOnlyStores := by
  intro s k b now hk hf hp
  rw [exec_feedInstr, Block.feedAt_invalid_collect _ _ _ _ _ hf hp hk]
  rfl

/-- A pending `PrefixMismatch` is reported before any test of the checksum (D8). -/
theorem Block.endOfFrame_prefixPending {s : Block} (c : Config) (now : Nat) (hf : s.frameOk = false)
    (he : s.err = .prefixMismatch) : s.endOfFrame c now = s.reject c .prefixMismatch now :=
  if_pos ⟨hf, he⟩

/-- A pending `UnexpectedInitialSequence` is reported before any test of the checksum (D8). -/
theorem Block.endOfFrame_sequencePending {s : Block} (c : Config) (now : Nat) (hf : s.frameOk = false)
    (he : s.err = .unexpectedInitialSequence) : s.endOfFrame c now = s.reject c .unexpectedInitialSequence now := by
  rw [Block.endOfFrame, if_neg (by simp [he]), if_pos ⟨hf, he⟩]

/-- An invalid frame at offset 14 or under TERMINATE ends with this byte, unchecked (R89 (e), R70 sub-step 4). -/
theorem exec_feed_ends_invalid {s : State} {k : Offset} (b : Byte) (now : Nat) (hf : s.frameOk = false)
    (hk : k = 14 ∨ s.config.policy = .terminate) :
    exec (feedInstr k b now) s = .next (s.put ((s.store k b).endOfFrame s.config now)) := by
  rw [exec_feedInstr]
  rcases hk with rfl | hp
  · rw [Block.feedAt_csum]
  · rw [Block.feedAt_invalid_terminate _ _ _ _ _ hf hp]

/-- Settles O21: the frame ends with the recorded reason as its report. -/
theorem invalidFrameReportsRecordedReason : Obligations.InvalidFrameReportsRecordedReason := by
  intro s k b now hf hk after
  rw [exec_feed_ends_invalid b now hf hk]
  refine ⟨fun he => ?_, fun he => ?_⟩
  · rw [Block.endOfFrame_prefixPending (s := s.store k b) _ _ hf he]
    rfl
  · rw [Block.endOfFrame_sequencePending (s := s.store k b) _ _ hf he]
    rfl

end Sys2Proof.Machine
end

section
/-! SUPPORT. IDLE, and when a feed step ends the frame: the cursor (40_frame_sync.md R87, R89 (f)), the synchronized flag (R88),
and the start of a frame that every event leaves. -/

namespace Sys2Proof.Machine

/-- Settles O11: an input without `rst` and `in_valid` selects IDLE, whatever its byte and time. -/
theorem idleChangesNothing : Obligations.IdleChangesNothing := by
  refine ⟨fun _ => rfl, fun s b now rest h => ?_⟩
  exact stepRunsDecodedInstruction.1 s _ rest .idle h (congrArg Except.ok (decodeSel6_idle s.cursor b now))

/-- The byte `b` ends the frame at position `k`: it is the fifteenth, or the policy is TERMINATE and the frame is not valid after
its check (42_end_of_frame.md R110). -/
def Block.EndsFrame (s : Block) (c : Config) (k : Offset) (b : Byte) : Prop :=
  k = 14 ∨ c.policy = .terminate ∧ (s.frameOk = true → s.failsAt k b = true)

/-- A byte that ends the frame leaves the epilogue and an event. -/
theorem Block.EndsFrame.feedAt {s : Block} {c : Config} {k : Offset} {b : Byte} (h : s.EndsFrame c k b) (now : Nat) :
    ∃ ev, ev ≠ .none ∧ s.feedAt c k b now = ((s.store k b).epilogue c now, ev) := by
  rcases s.feedAt_cases c k b now with ⟨hk, hf, hc, -⟩ | ⟨-, -, -, -, hr⟩ | ⟨hk, -, -, hp, -⟩ | ⟨hk, -, hp, -⟩ | ⟨-, hr⟩
  case inl => simp [Block.EndsFrame, hk, hf, hc] at h
  case inr.inl => exact ⟨_, by simp, hr⟩
  case inr.inr.inl => simp [Block.EndsFrame, hk, hp] at h
  case inr.inr.inr.inl => simp [Block.EndsFrame, hk, hp] at h
  case inr.inr.inr.inr =>
    rw [hr]
    exact (s.store k b).endOfFrame_epilogue c now

/-- Any other byte advances the cursor by one, without an event. -/
theorem Block.feedAt_advances {s : Block} {c : Config} {k : Offset} {b : Byte} (h : ¬ s.EndsFrame c k b) (now : Nat) :
    (s.feedAt c k b now).1.cursor.val = k.val + 1 ∧ (s.feedAt c k b now).2 = .none := by
  have hk : k ≠ 14 := fun hk => h (.inl hk)
  rcases s.feedAt_cases c k b now with ⟨-, -, -, hr⟩ | ⟨-, -, hc, hp, -⟩ | ⟨-, -, -, -, hr⟩ | ⟨-, -, -, hr⟩ | ⟨he, -⟩
  case inr.inl => exact absurd (.inr ⟨hp, fun _ => hc⟩) h
  case inr.inr.inr.inr =>
    rcases he with he | ⟨hf, hp⟩
    · exact absurd he hk
    · exact absurd (.inr ⟨hp, fun hf' => by simp [hf] at hf'⟩) h
  all_goals
    rw [hr]
    exact ⟨Offset.succ_val k hk, rfl⟩

theorem Offset.eq_fourteen_iff (k : Offset) : k = 14 ↔ k.val = 14 := Fin.ext_iff

/-- Settles O23: under TERMINATE the invariant makes the frame valid, so the bytes that end it are the fifteenth and the
failing ones. -/
theorem cursorLaw : Obligations.CursorLaw := by
  intro s b now rest hs hp hx
  have hends : s.EndsFrame s.config s.cursor b ↔ s.cursor.val = 14 ∨ s.FailsCheck b := by
    simp [Block.EndsFrame, hp, hs.terminateOk hp, Block.failsAt_iff, Offset.eq_fourteen_iff]
  refine ⟨_, step_feed s b now rest hx, fun h => ?_, fun h => ?_⟩
  · obtain ⟨ev, -, hev⟩ := (hends.mpr h).feedAt now
    exact congrArg (fun r : Result => r.1.cursor.val) hev
  · exact (Block.feedAt_advances (hends.not.mpr h) now).1

/-- Settles O24: under COLLECT only the fifteenth byte ends a frame. -/
theorem collectCursorLaw : Obligations.CollectCursorLaw := by
  intro s b now rest hp hx
  have hends : s.EndsFrame s.config s.cursor b ↔ s.cursor.val = 14 := by
    simp [Block.EndsFrame, hp, Offset.eq_fourteen_iff]
  refine ⟨_, step_feed s b now rest hx, fun h => ?_, fun h => Block.feedAt_advances (hends.not.mpr h) now⟩
  obtain ⟨ev, hne, hev⟩ := (hends.mpr h).feedAt now
  exact ⟨congrArg (fun r : Result => r.1.cursor.val) hev, fun he => hne ((congrArg Prod.snd hev).symm.trans he)⟩

/-- What a feed step leaves of `synced` (R74, R88). -/
theorem Block.feedAt_synced_eq (s : Block) (c : Config) (k : Offset) (b : Byte) (now : Nat) :
    (s.feedAt c k b now).1.synced = (s.synced || (decide (k.val = 2) && s.frameOk && decide (b = 0x02#8))) := by
  by_cases hk : k = 2
  · subst hk
    rcases s.feedAt_cases c 2 b now with
      ⟨-, hf, hc, h⟩ | ⟨-, hf, hc, -, h⟩ | ⟨-, hf, hc, -, h⟩ | ⟨-, hf, -, h⟩ | ⟨hk | ⟨hf, -⟩, h⟩
    case inl =>
      have hb : s.synced = true ∨ b = 0x02#8 := by simpa [or_iff_not_imp_left] using hc
      rw [h]
      rcases hb with hb | hb <;> simp [hf, hb]
    case inr.inl | inr.inr.inl =>
      obtain ⟨-, hb⟩ : s.synced = false ∧ b ≠ 0x02#8 := by simpa using hc
      simp [h, hb]
    case inr.inr.inr.inl => simp [h, hf]
    case inr.inr.inr.inr.inl => exact absurd hk (by decide)
    case inr.inr.inr.inr.inr =>
      obtain ⟨ev, -, hev⟩ := (s.store 2 b).endOfFrame_epilogue c now
      simp [h, hev, hf]
  · have hk2 : k.val ≠ 2 := fun h => hk (Fin.ext h)
    simp [s.feedAt_synced c k b now hk, hk2]

/-- What a step leaves of `synced`: RESET clears it, a 2 at position 2 of a valid frame sets it. -/
theorem Block.step_synced (s : Block) (c : Config) (x : Stimulus) :
    (s.step c x).1.synced = (!x.rst && (s.synced ||
      (x.inValid && (decide (s.cursor.val = 2) && s.frameOk && decide (x.data = 0x02#8))))) := by
  unfold Block.step
  cases x.rst <;> cases x.inValid <;> simp [Block.feed, Block.feedAt_synced_eq]

/-- Settles O26: both clauses are readings of `Block.step_synced`. -/
theorem synchronizationTransitions : Obligations.SynchronizationTransitions := by
  intro s t h
  have hsync : t.synced = (s.step s.config s.nextInput).1.synced := congrArg (·.1.synced) (step_eq_blockStep h).1
  rw [hsync, Block.step_synced]
  exact ⟨fun hs => by simp [hs, and_assoc], fun hs => by simp [hs]⟩

/-- A step with an event leaves what the epilogue leaves (R87, R116). -/
theorem step_event_epilogue {s t : State} (h : step s = .next t) (he : t.event ≠ .none) :
    ∃ (u : Block) (ev : FrameEvent), t = s.takeInput.put (u.epilogue s.config s.nextInput.now, ev) := by
  obtain ⟨-, -, u, -, ⟨-, -, -, -, ht⟩ | ⟨-, ht⟩⟩ := step_event s t h he
  · exact ⟨u, _, ht⟩
  · obtain ⟨ev, -, hev⟩ := u.endOfFrame_epilogue s.config s.nextInput.now
    exact ⟨u, ev, by rw [ht, hev]⟩

/-- The operation of a byte to come is the FEED of the cursor (30_encoding.md R57). -/
theorem State.nextInstr_of_feed {s : State} {b : Byte} {now : Nat} {rest : List Stimulus}
    (h : s.stimulus = Stimulus.feed b now :: rest) : s.nextInstr = feedInstr s.cursor b now := by
  rw [State.nextInstr, State.nextInput, h]
  exact decodeSel6_feed s.cursor b now

/-- Settles O29: the epilogue leaves cursor 0, where the next byte is FEED.P0. -/
theorem completionStartsFreshFrame : Obligations.CompletionStartsFreshFrame := by
  intro s t h he
  obtain ⟨u, ev, rfl⟩ := step_event_epilogue h he
  exact ⟨⟨rfl, rfl, rfl⟩, rfl, fun b now rest hx => State.nextInstr_of_feed hx⟩

end Sys2Proof.Machine
end

section
/-! SUPPORT. Hunting for the start of a frame under TERMINATE (40_frame_sync.md R90). -/

namespace Sys2Proof.Machine

/-- What bytes other than 0x01, fed at the frame start `s`, leave in `u`. -/
structure HuntsAfter (s u : State) : Prop where
  event : ∃ e, u.event = .rejected e ∧ e.reason = .prefixMismatch
  start : u.AtFrameStart
  rawWf : u.raw.wf = true
  config : u.config = s.config
  synced : u.synced = s.synced
  bytes : ∀ k : Offset, k ≠ 0 → u.rawAt k = s.rawAt k

theorem HuntsAfter.trans {s u v : State} (hu : HuntsAfter s u) (hv : HuntsAfter u v) : HuntsAfter s v where
  event := hv.event
  start := hv.start
  rawWf := hv.rawWf
  config := hv.config.trans hu.config
  synced := hv.synced.trans hu.synced
  bytes k hk := (hv.bytes k hk).trans (hu.bytes k hk)

/-- One such byte is consumed as byte 0 and rejected (R72). -/
theorem State.AtFrameStart.feed_noise {s : State} {b : Byte} (ha : s.AtFrameStart) (hw : s.raw.wf = true)
    (hp : s.config.policy = .terminate) (hb : b ≠ 0x01#8) (now : Nat) : HuntsAfter s (s.feed b now) := by
  have hcur : s.cursor = 0 := Fin.ext ha.cursor
  have hfeed : s.feed b now = s.put ((s.store 0 b).reject s.config .prefixMismatch now) := by
    rw [State.feed, Block.feed, hcur, Block.feedAt_fails_terminate _ _ _ _ _ ha.frameOk (by simpa using hb) hp]
    rfl
  rw [hfeed]
  exact {
    event := ⟨_, rfl, rfl⟩
    start := ⟨rfl, rfl, rfl⟩
    rawWf := Memory.wf_write s.raw 0 b hw
    config := rfl
    synced := rfl
    bytes := fun k hk => (s.store_rawAt 0 k b hw).trans (if_neg hk) }

/-- A non-empty run of such bytes is rejected one by one. -/
theorem State.AtFrameStart.feedAll_noise {s : State} {noise : List (Byte × Nat)} (ha : s.AtFrameStart) (hw : s.raw.wf = true)
    (hp : s.config.policy = .terminate) (hb : ∀ x ∈ noise, x.1 ≠ 0x01#8) (hne : noise ≠ []) :
    HuntsAfter s (s.feedAll noise) := by
  induction noise generalizing s with
  | nil => exact absurd rfl hne
  | cons x l ih =>
    obtain ⟨hx, hl⟩ := List.forall_mem_cons.mp hb
    have hfirst : HuntsAfter s (s.feed x.1 x.2) := ha.feed_noise hw hp hx x.2
    rcases eq_or_ne l [] with rfl | hne'
    · exact hfirst
    · exact hfirst.trans (ih hfirst.start hfirst.rawWf (hfirst.config ▸ hp) hl hne')

/-- Settles O52: a run over the bytes is the fold of `feed` over them. -/
theorem noiseIsRejectedByteByByte : Obligations.NoiseIsRejectedByteByByte := by
  intro s noise rest ha hw hp hb hne hx
  have hrun := run_feeds s noise rest
  rw [← hx] at hrun
  have hhunt : HuntsAfter { s with stimulus := rest } (State.feedAll { s with stimulus := rest } noise) :=
    State.AtFrameStart.feedAll_noise ⟨ha.cursor, ha.frameOk, ha.acc⟩ hw hp hb hne
  obtain ⟨e, he, hreason⟩ := hhunt.event
  exact ⟨_, e, hrun, he, hreason, hhunt.start, hhunt.synced, State.feedAll_stimulus _ noise, hhunt.bytes⟩

end Sys2Proof.Machine
end

section
/-! SUPPORT. The checksum accumulator (41_checksum.md): what XACC.ACC, XACC.CLR and XACC.CHK leave, where a feed step, the end of a
frame and RESET do the same, the frame with a bad checksum, and the operations that only compute. -/

namespace Sys2Proof.Machine

/-- The accumulation in the words of R100. -/
theorem Block.accumulate_eq (s : Block) (k : Offset) (b : Byte) :
    s.accumulate k b = { s with acc := if s.frameOk = true ∧ k.val ≤ 13 then s.acc ^^^ b else s.acc } := by
  have hlast : k ≤ Config.csumLast ↔ k.val ≤ 13 := Iff.rfl
  simp only [Block.accumulate, hlast, Bool.and_eq_true, decide_eq_true_eq]
  split_ifs <;> rfl

/-- A feed step without an event accumulates its byte exactly when its check leaves the frame valid (R70 sub-step 3). -/
theorem Block.feedAt_acc_of_silent {s : Block} {c : Config} {k : Offset} {b : Byte} {now : Nat}
    (he : (s.feedAt c k b now).2 = .none) :
    k.val ≤ 13 ∧ (s.feedAt c k b now).1.acc = if (s.feedAt c k b now).1.frameOk = true then s.acc ^^^ b else s.acc := by
  have hle : k ≠ 14 → k.val ≤ 13 := Offset.le_csumLast k
  rcases s.feedAt_cases c k b now with
    ⟨hk, hf, -, h⟩ | ⟨-, -, -, -, h⟩ | ⟨hk, -, -, -, h⟩ | ⟨hk, hf, -, h⟩ | ⟨-, h⟩
  · rw [h]
    exact ⟨hle hk, (if_pos hf).symm⟩
  · simp [h] at he
  · rw [h]
    exact ⟨hle hk, rfl⟩
  · rw [h]
    exact ⟨hle hk, by simp [hf]⟩
  · obtain ⟨ev, hne, hev⟩ := (s.store k b).endOfFrame_epilogue c now
    rw [h, hev] at he
    exact absurd he hne

/-- Settles O38: `Block.accumulate_eq` at the state's cursor, and sub-step 3 of a feed step. -/
theorem xaccAccumulates : Obligations.XaccAccumulates := by
  refine ⟨fun s b => ?_, fun s t k b now h he => ?_⟩
  · have hacc : exec (.xaccAcc b) s = .next (s.put (s.accumulate s.cursor b).silent) := rfl
    rw [hacc, Block.accumulate_eq]
    rfl
  · rw [exec_feedInstr] at h
    obtain rfl := Host.Outcome.next.inj h
    exact Block.feedAt_acc_of_silent he

/-- A step with `rst` is RESET, whatever the byte (R176). -/
theorem Block.step_of_rst {x : Stimulus} (hr : x.rst = true) (s : Block) (c : Config) :
    s.step c x = (Block.reset c x.now).silent := if_pos hr

/-- Settles O39: an event leaves the epilogue, RESET the values of R22; both have a zero accumulator. -/
theorem xaccClears : Obligations.XaccClears := by
  refine ⟨fun s => rfl, fun s t h hc => ?_⟩
  rcases hc with he | hr
  · obtain ⟨u, ev, rfl⟩ := step_event_epilogue h he
    exact u.epilogue_acc s.config s.nextInput.now
  · have hblock := (step_eq_blockStep h).1
    rw [Block.step_of_rst hr] at hblock
    exact congrArg (·.1.acc) hblock

/-- Settles O40: the test of R102 on the state itself, and on the state with byte 14 stored, where it chooses the outcome. -/
theorem xaccChecks : Obligations.XaccChecks := by
  refine ⟨fun s => ?_, fun s b now hw hf => ?_⟩
  · have hchk : exec .xaccChk s = .next (s.report (.csumOk s.csumOk)) := rfl
    rw [hchk, Block.csumOk_eq]
    rfl
  · rw [exec_feedP14, Block.endOfFrame_valid (s.store 14 b) _ _ hf, Block.csumOk_store _ _ hw]
    refine ⟨fun hx => ?_, fun hx => ?_⟩
    · rw [if_pos (decide_eq_true hx)]
      rfl
    · rw [if_neg (by simpa using hx)]
      rfl

/-- A rejected frame leaves the start of the next (R116). -/
theorem State.put_reject_atFrameStart (s : State) (u : Block) (r : Reason) (now : Nat) :
    (s.put (u.reject s.config r now)).AtFrameStart :=
  ⟨rfl, rfl, rfl⟩

/-- With byte 14 stored, the snapshot is the frame's own bytes in the order of arrival (43_field_extract.md R130). -/
theorem InProgress.snapshot_store_csum {s u : State} {f : WireFrame} (hg : InProgress s u (byteAt f) 14) :
    (u.store 14 (byteAt f 14)).raw.snapshot.toList = f.bytes := by
  rw [Memory.snapshot_toList, ← map_byteAt_range]
  exact List.map_congr_left fun k hk => hg.store_csum_read (List.mem_range.mp hk)

/-- Settles O50: the first fourteen bytes pass their checks, so the fifteenth is decided by the checksum, which fails. -/
theorem frameWithBadChecksumRejected : Obligations.FrameWithBadChecksumRejected := by
  intro s f t0 d ha hw hsync x hbad
  have hp : s.Passes (byteAt f) 14 := ⟨fun _ => rfl, fun _ => rfl, fun _ => hsync⟩
  have hg := s.fed_inProgress (byteAt f) (timeAt t0 d) ha hw 14 le_rfl hp
  have hx : xorUpTo (byteAt f) 14 = x := xorUpTo_fourteen (byteAt f)
  have hfails : ¬ (xorUpTo (byteAt f) 14 ≠ 0x00#8 ∧ byteAt f 14 = xorUpTo (byteAt f) 14) := by
    rw [hx]
    exact fun ⟨h0, h14⟩ => hbad.elim h0 (· h14)
  rw [exec_frame, State.fed, hg.feed_csum, if_neg hfails]
  refine ⟨_, _, rfl, rfl, rfl, hg.snapshot_store_csum, State.put_reject_atFrameStart _ _ _ _, ?_, ?_⟩
  · simp [hg.synced]
  · simp [hg.config, stamp, timeAt]

/-- The five computing operations answer a report, whatever the state. -/
theorem exec_computing {i : Instr} {now : Nat} {v : Byte} {n : Nat}
    (hi : i ∈ [.xaccChk, .bit v n, .fields, .flags, .tsInterval now]) (s : State) : ∃ x, exec i s = .next (s.report x) := by
  simp only [List.mem_cons, List.not_mem_nil, or_false] at hi
  rcases hi with rfl | rfl | rfl | rfl | rfl <;> exact ⟨_, rfl⟩

/-- Settles O47: a report writes the output fields only. -/
theorem computingOperationsWriteNothing : Obligations.ComputingOperationsWriteNothing := by
  intro i s t now v n hi h
  obtain ⟨x, hx⟩ := exec_computing hi s
  obtain rfl := Host.Outcome.next.inj (hx.symm.trans h)
  rfl

end Sys2Proof.Machine
end

section
/-! SUPPORT. The end of a frame (42_end_of_frame.md): the four outcomes and the epilogue by themselves, the end-of-frame word that
selects one of them, the events of a step, and what the operations without a store keep. -/

namespace Sys2Proof.Machine

/-- Settles O33: each rejection is `Block.reject` with its reason. -/
theorem eofRejectOutcomes : Obligations.EofRejectOutcomes := fun _ _ => ⟨rfl, rfl, rfl⟩

/-- Settles O34: the `DecodedFrame` is the one of the state before the epilogue. -/
theorem eofDecodeOutcome : Obligations.EofDecodeOutcome := by
  intro s now
  have haccept : exec (.eofDecode now) s = .next (s.put (s.accept s.config now)) := rfl
  rw [haccept, Block.accept, Block.decodedFrame_eq]
  rfl

/-- Settles O35: EOF.EPILOGUE is `Block.epilogue`. -/
theorem eofEpilogueResets : Obligations.EofEpilogueResets := fun _ _ => rfl

section EndOfFrameWord

variable {s : Block} {now : Nat}

/-- The word of a frame with a pending `PrefixMismatch`, whatever its checksum (R58). -/
theorem Block.decode_eofSel_prefixPending (hf : s.frameOk = false) (he : s.err = .prefixMismatch) :
    decode (.eofSel4 s.eofSel now) = .ok (.eofRejectPrefix now) := by
  rw [Block.eofSel, hf, he]
  cases s.csumOk <;> rfl

/-- The word of a frame with a pending `UnexpectedInitialSequence`, whatever its checksum (R58). -/
theorem Block.decode_eofSel_sequencePending (hf : s.frameOk = false) (he : s.err = .unexpectedInitialSequence) :
    decode (.eofSel4 s.eofSel now) = .ok (.eofRejectSeq now) := by
  rw [Block.eofSel, hf, he]
  cases s.csumOk <;> rfl

/-- The word of a valid frame selects by the checksum test (R58). -/
theorem Block.decode_eofSel_valid (hf : s.frameOk = true) (he : s.err = .none) :
    decode (.eofSel4 s.eofSel now) = .ok (if s.csumOk then .eofDecode now else .eofRejectCsum now) := by
  rw [Block.eofSel, hf, he]
  cases s.csumOk <;> rfl

/-- A word that selects an outcome is formed by a state with invariant I2 of 10_state.md R21: the patterns that break it are among
the unreachable ones of R58. -/
theorem Block.err_none_iff_of_decode_eofSel {i : Instr} (h : decode (.eofSel4 s.eofSel now) = .ok i) :
    s.err = .none ↔ s.frameOk = true := by
  rw [Block.eofSel] at h
  cases hf : s.frameOk <;> cases he : s.err <;> rw [hf, he] at h
  case false.none | true.prefixMismatch | true.unexpectedInitialSequence =>
    generalize s.csumOk = ok at h
    cases ok <;> cases h
  all_goals simp

end EndOfFrameWord

/-- Settles O36: a pending reason decides before the checksum test. -/
theorem endOfFrameDecision : Obligations.EndOfFrameDecision := by
  intro s now
  refine ⟨Block.decode_eofSel_prefixPending, Block.decode_eofSel_sequencePending, fun hf he hc => ?_, fun hf he h0 h14 => ?_⟩
  · have hbad : ¬ (s.acc ≠ 0x00#8 ∧ s.acc = s.rawAt 14) := fun ⟨h0, h14⟩ => hc.elim h0 (· h14)
    rw [Block.decode_eofSel_valid hf he, Block.csumOk_eq, decide_eq_false hbad]
    rfl
  · rw [Block.decode_eofSel_valid hf he, Block.csumOk_eq, decide_eq_true ⟨h0, h14⟩]
    rfl

/-- The outcome that the state's end-of-frame word selects is what end-of-frame processing does (R111). -/
theorem exec_of_decode_eofSel {s : State} {now : Nat} {i : Instr} (h : decode (.eofSel4 s.eofSel now) = .ok i) :
    exec i s = .next (s.put (s.endOfFrame s.config now)) := by
  have hI2 : s.err = .none ↔ s.frameOk = true := Block.err_none_iff_of_decode_eofSel h
  cases hf : s.frameOk
  case true =>
    rw [Block.decode_eofSel_valid hf (hI2.mpr hf)] at h
    obtain rfl := Except.ok.inj h
    rw [Block.endOfFrame_valid _ _ _ hf]
    cases s.csumOk <;> rfl
  case false =>
    cases he : s.err
    case none => exact absurd (hI2.mp he) (by simp [hf])
    case prefixMismatch =>
      rw [Block.decode_eofSel_prefixPending hf he] at h
      obtain rfl := Except.ok.inj h
      rw [Block.endOfFrame_prefixPending _ _ hf he]
      rfl
    case unexpectedInitialSequence =>
      rw [Block.decode_eofSel_sequencePending hf he] at h
      obtain rfl := Except.ok.inj h
      rw [Block.endOfFrame_sequencePending _ _ hf he]
      rfl

/-- Settles O37: FEED.P14 is the store and end-of-frame processing, which does what the word selects. -/
theorem feedP14RunsSelectedOutcome : Obligations.FeedP14RunsSelectedOutcome := by
  intro s b now i h
  rw [exec_feedP14]
  exact (exec_of_decode_eofSel h).symm

/-- A feed step emits an event exactly when it leaves the cursor at 0 (R117). -/
theorem Block.feedAt_event_iff (s : Block) (c : Config) (k : Offset) (b : Byte) (now : Nat) :
    (s.feedAt c k b now).2 ≠ .none ↔ (s.feedAt c k b now).1.cursor.val = 0 := by
  by_cases hends : s.EndsFrame c k b
  · obtain ⟨ev, hne, hr⟩ := hends.feedAt now
    simp [hr, hne]
  · obtain ⟨hcur, hev⟩ := Block.feedAt_advances hends now
    simp [hcur, hev]

/-- Settles O25: the first clause is `Block.feedAt_event_iff`; the second is what `step_event` says of the inputs of a step with
an event. -/
theorem eventExactlyAtFrameEnd : Obligations.EventExactlyAtFrameEnd := by
  refine ⟨fun s b now rest hs => ⟨_, step_feed s b now rest hs, Block.feedAt_event_iff _ _ _ _ _⟩, fun s x rest hs hx => ?_⟩
  obtain ⟨t, ht⟩ := everyStepCompletes s
  refine ⟨t, ht, ?_⟩
  by_contra he
  obtain ⟨hr, hv, -⟩ := step_event s t ht he
  have hnext : s.nextInput = x := by rw [State.nextInput, hs]; rfl
  rw [hnext] at hr hv
  simp [hr, hv] at hx

/-- A `Decoded` step from a state with the invariant: the byte completes a valid frame and passes the checksum test, and the frame
is accepted. -/
theorem State.Inv.step_decoded {s t : State} {d : DecodedFrame} (hs : s.Inv) (h : step s = .next t)
    (hd : t.event = .decoded d) :
    s.cursor = 14 ∧ s.frameOk = true ∧ (s.store 14 s.nextInput.data).csumOk = true ∧
      t = s.takeInput.put ((s.store 14 s.nextInput.data).accept s.config s.nextInput.now) := by
  obtain ⟨-, -, u, rfl, ⟨-, -, -, -, rfl⟩ | ⟨hk, rfl⟩⟩ := step_event s t h (by simp [hd])
  · simp at hd
  · have hcur : s.cursor = 14 := hk.resolve_right fun ⟨hf, hp⟩ => by simp [hs.terminateOk hp] at hf
    rw [hcur] at hd ⊢
    rcases (s.store 14 s.nextInput.data).endOfFrame_cases s.config s.nextInput.now with
      ⟨-, -, hr⟩ | ⟨-, -, hr⟩ | ⟨-, -, hr⟩ | ⟨hv, hc, hr⟩
    case inr.inr.inr =>
      have hf : s.frameOk = true := by
        by_contra hf
        exact hv ⟨by simpa using hf, fun he => hf (hs.errIff.mp he)⟩
      exact ⟨rfl, hf, hc, by rw [hr]⟩
    all_goals simp [hr] at hd

/-- Settles O32: the first fourteen bytes are as the invariant says, and the checksum test has passed on the one just stored. -/
theorem decodedOnlyWhenChecksPass : Obligations.DecodedOnlyWhenChecksPass := by
  intro s t d hs h hd
  obtain ⟨hcur, hf, hc, rfl⟩ := hs.step_decoded h hd
  have hval : s.cursor.val = 14 := congrArg Fin.val hcur
  have hsync : s.synced = true := hs.syncedInside hf (by omega)
  have hstored (a : Offset) (ha : a ≠ 14) : (s.store 14 s.nextInput.data).rawAt a = s.rawAt a :=
    (s.store_rawAt 14 a s.nextInput.data hs.rawWf).trans (if_neg ha)
  have hxor : s.acc = (s.store 14 s.nextInput.data).raw.xorBelow 14 := by
    rw [hs.accIsXor hf, hval]
    exact (Memory.xorBelow_write s.raw 14 s.nextInput.data hs.rawWf 14 le_rfl).symm
  rw [Block.csumOk_eq, decide_eq_true_eq, Block.store_acc] at hc
  obtain ⟨hne, heq⟩ := hc
  obtain rfl := FrameEvent.decoded.inj hd
  rw [Block.decodedFrame_eq]
  exact ⟨hval, hsync, hsync, (hstored 0 (by decide)).trans (hs.magic0 hf (by omega)),
    (hstored 1 (by decide)).trans (hs.magic1 hf (by omega)), hxor.symm.trans heq, heq ▸ hne,
    rfl, rfl, rfl, rfl, rfl, rfl, rfl, rfl, rfl⟩

@[simp] theorem Block.accumulate_raw (s : Block) (k : Offset) (b : Byte) : (s.accumulate k b).raw = s.raw := by
  rw [Block.accumulate_eq]

@[simp] theorem Block.accumulate_synced (s : Block) (k : Offset) (b : Byte) : (s.accumulate k b).synced = s.synced := by
  rw [Block.accumulate_eq]

/-- What each operation without a store leaves; only XACC.ACC is a case distinction. -/
theorem exec_withoutStore {i : Instr} {now : Nat} {v : Byte} {n : Nat}
    (hi : i ∈ [.eofRejectPrefix now, .eofRejectSeq now, .eofRejectCsum now, .eofDecode now, .eofEpilogue now, .xaccAcc v, .xaccClr,
      .xaccChk, .bit v n, .fields, .flags, .tsInterval now, .tsUpdate now, .idle]) (s : State) :
    ∃ u, exec i s = .next u ∧ u.raw = s.raw ∧ u.synced = s.synced ∧ u.config = s.config ∧ u.stimulus = s.stimulus := by
  simp only [List.mem_cons, List.not_mem_nil, or_false] at hi
  rcases hi with rfl | rfl | rfl | rfl | rfl | hacc | rfl | rfl | rfl | rfl | rfl | rfl | rfl | rfl
  case inr.inr.inr.inr.inr.inl =>
    subst hacc
    exact ⟨_, rfl, s.accumulate_raw s.cursor v, s.accumulate_synced s.cursor v, rfl, rfl⟩
  all_goals exact ⟨_, rfl, rfl, rfl, rfl, rfl⟩

/-- Settles O46: with the buffer as it was, every byte of it reads as before. -/
theorem operationsWithoutStoreKeepRawFrame : Obligations.OperationsWithoutStoreKeepRawFrame := by
  intro i s t now v n hi h
  obtain ⟨u, hu, hraw, hrest⟩ := exec_withoutStore hi s
  obtain rfl := Host.Outcome.next.inj (hu.symm.trans h)
  exact ⟨fun a => congrArg (Memory.read · a.val) hraw, hrest⟩

end Sys2Proof.Machine
end

section
/-! SUPPORT. The field extractor (43_field_extract.md): a bit of a byte, the fields and flags, the snapshot of a rejection (R130), and
that stale bytes and RAW_INIT reach nothing but snapshots (R132). -/

namespace Sys2Proof.Machine

/-- BIT as arithmetic (R125); positions 8 and above hold 0 (D26, U11). -/
theorem bitOf_eq_decide (v : Byte) (i : Nat) : bitOf v i = decide (v.toNat / 2 ^ i % 2 = 1) := by
  have hand : (v >>> i &&& 1#8).toNat = v.toNat / 2 ^ i % 2 := by
    simp [Nat.shiftRight_eq_div_pow, Nat.and_one_is_mod]
  simp only [bitOf, beq_eq_decide, BitVec.toNat_eq, hand]
  rfl

/-- Settles O41: BIT reports `bitOf`. -/
theorem bitIsQuotientParity : Obligations.BitIsQuotientParity := by
  intro s v i
  rw [← bitOf_eq_decide]
  rfl

/-- Settles O42: the five positions are those of R5. -/
theorem fieldsAreWholeBytes : Obligations.FieldsAreWholeBytes := fun _ => rfl

/-- The flags as bits of byte 6 (R127, R128). -/
theorem Block.flagFields_eq (s : Block) :
    s.flagFields = ⟨(s.rawAt 6).getLsbD 1, (s.rawAt 6).getLsbD 2, (s.rawAt 6).getLsbD 3⟩ := by
  rw [← bitOf_eq_getLsbD _ 1 (by omega), ← bitOf_eq_getLsbD _ 2 (by omega), ← bitOf_eq_getLsbD _ 3 (by omega)]
  rfl

/-- Settles O43: FLAGS reports `Block.flagFields`. -/
theorem flagsAreBitsOfByte6 : Obligations.FlagsAreBitsOfByte6 := by
  intro s
  rw [← Block.flagFields_eq]
  rfl

/-- Whatever the reason, a rejection at the end of a frame carries the buffer as it stands (R112 to R114). -/
theorem Block.raw_of_endOfFrame_rejected {s : Block} {c : Config} {now : Nat} {e : FrameError}
    (h : (s.endOfFrame c now).2 = .rejected e) : e.raw = s.raw.snapshot := by
  rcases s.endOfFrame_cases c now with ⟨-, -, hr⟩ | ⟨-, -, hr⟩ | ⟨-, -, hr⟩ | ⟨-, -, hr⟩
  case inr.inr.inr => simp [hr] at h
  all_goals
    rw [hr] at h
    obtain rfl := FrameEvent.rejected.inj h
    rfl

/-- The snapshot of a step that rejects is the buffer with the triggering byte in it. -/
theorem raw_of_step_rejected {s t : State} {e : FrameError} (h : step s = .next t) (he : t.event = .rejected e) :
    e.raw = (s.store s.cursor s.nextInput.data).raw.snapshot := by
  obtain ⟨-, -, u, rfl, ⟨-, -, -, -, rfl⟩ | ⟨-, rfl⟩⟩ := step_event s t h (by simp [he])
  · obtain rfl := FrameEvent.rejected.inj he
    rfl
  · exact Block.raw_of_endOfFrame_rejected he

/-- Settles O28: the snapshot, read offset by offset. -/
theorem rejectionSnapshotKeepsStaleBytes : Obligations.RejectionSnapshotKeepsStaleBytes := by
  intro s t e hw h he k
  rw [raw_of_step_rejected h he, Memory.snapshot_get]
  exact Block.store_rawAt _ _ _ _ hw

/-- The blocks agree on every element but `raw`, and on the bytes of `raw` below offset `n`. -/
structure AgreeBelow (n : Nat) (s t : Block) : Prop where
  cursor : s.cursor = t.cursor
  acc : s.acc = t.acc
  frameOk : s.frameOk = t.frameOk
  synced : s.synced = t.synced
  err : s.err = t.err
  lastTs : s.lastTs = t.lastTs
  bytes : ∀ a : Offset, a.val < n → s.rawAt a = t.rawAt a

theorem SameButStale.agreeBelow {s t : State} (h : SameButStale s t) : AgreeBelow s.cursor.val s.toBlock t.toBlock :=
  { h with bytes := h.current }

/-- The results of two steps that stale bytes did not influence: the blocks agree below the cursor, and the events but for the raw
snapshot. -/
def SameResult (r q : Result) : Prop := AgreeBelow r.1.cursor.val r.1 q.1 ∧ r.2.forgetRaw = q.2.forgetRaw

section Agreement

variable {s t : Block} {c : Config} {k : Offset} {b : Byte} {now : Nat}

/-- The byte stored at `k` is one more on which the two agree. -/
theorem AgreeBelow.store (h : AgreeBelow k.val s t) (hs : s.raw.wf = true) (ht : t.raw.wf = true) (b : Byte) :
    AgreeBelow (k.val + 1) (s.store k b) (t.store k b) :=
  { h with
    bytes := fun a ha => by
      rw [s.store_rawAt k a b hs, t.store_rawAt k a b ht]
      split_ifs with hak
      · rfl
      · have hne : a.val ≠ k.val := fun e => hak (Fin.ext e)
        exact h.bytes a (by omega) }

/-- Where a frame starts every byte is stale. -/
theorem AgreeBelow.epilogue {n : Nat} (h : AgreeBelow n s t) (c : Config) (now : Nat) :
    AgreeBelow 0 (s.epilogue c now) (t.epilogue c now) :=
  ⟨rfl, rfl, rfl, h.synced, rfl, rfl, fun _ ha => absurd ha (Nat.not_lt_zero _)⟩

/-- Two rejections for the same reason differ in the snapshot only. -/
theorem AgreeBelow.reject {n : Nat} (h : AgreeBelow n s t) (r : Reason) : SameResult (s.reject c r now) (t.reject c r now) :=
  ⟨h.epilogue c now, rfl⟩

/-- A whole frame holds nothing stale, so the checksum test and the decoded fields agree. -/
theorem AgreeBelow.endOfFrame (h : AgreeBelow 15 s t) : SameResult (s.endOfFrame c now) (t.endOfFrame c now) := by
  have hraw (a : Offset) : s.rawAt a = t.rawAt a := h.bytes a a.isLt
  have hcsum : s.csumOk = t.csumOk := by rw [Block.csumOk_eq, Block.csumOk_eq, h.acc, hraw]
  have hdecoded : s.decodedFrame c now = t.decodedFrame c now := by simp only [Block.decodedFrame_eq, hraw, h.lastTs]
  unfold Block.endOfFrame
  rw [h.frameOk, h.err, hcsum]
  split_ifs
  · exact h.reject _
  · exact h.reject _
  · exact h.reject _
  · exact ⟨h.epilogue c now, congrArg (fun d => (FrameEvent.decoded d).forgetRaw) hdecoded⟩

/-- A feed step reads, of the buffer, only the frame in progress: at offset 14 that is the whole buffer, and before it the end of a
frame is a rejection. The other end, of an invalid frame under TERMINATE, is shut out by invariant I5 (10_state.md R21). -/
theorem AgreeBelow.feedAt (h : AgreeBelow k.val s t) (hs : s.raw.wf = true) (ht : t.raw.wf = true)
    (hv : c.policy = .terminate → s.frameOk = true) : SameResult (s.feedAt c k b now) (t.feedAt c k b now) := by
  have hstore := h.store hs ht b
  have hnext (hk : k ≠ 14) : AgreeBelow (k + 1).val (s.store k b) (t.store k b) := by
    rw [Offset.succ_val k hk]
    exact hstore
  have hfails : s.failsAt k b = t.failsAt k b := by simp only [Block.failsAt, h.synced]
  rcases s.feedAt_cases c k b now with
    ⟨hk, hf, hc, hr⟩ | ⟨-, hf, hc, hp, hr⟩ | ⟨hk, hf, hc, hp, hr⟩ | ⟨hk, hf, hp, hr⟩ | ⟨rfl | ⟨hf, hp⟩, hr⟩
  case inl =>
    rw [hr, t.feedAt_passes c k b now (h.frameOk ▸ hf) (hfails ▸ hc) hk, ← h.acc, ← h.synced]
    exact ⟨{ hnext hk with cursor := rfl, acc := rfl, synced := rfl }, rfl⟩
  case inr.inl =>
    rw [hr, t.feedAt_fails_terminate c k b now (h.frameOk ▸ hf) (hfails ▸ hc) hp]
    exact hstore.reject _
  case inr.inr.inl =>
    rw [hr, t.feedAt_fails_collect c k b now (h.frameOk ▸ hf) (hfails ▸ hc) hp]
    exact ⟨{ hnext hk with cursor := rfl, frameOk := rfl, err := rfl }, rfl⟩
  case inr.inr.inr.inl =>
    rw [hr, t.feedAt_invalid_collect c k b now (h.frameOk ▸ hf) hp hk]
    exact ⟨{ hnext hk with cursor := rfl }, rfl⟩
  case inr.inr.inr.inr.inl =>
    rw [hr, t.feedAt_csum c b now]
    exact hstore.endOfFrame
  case inr.inr.inr.inr.inr => simp [hv hp] at hf

/-- RAW_INIT is read by RESET alone (10_state.md R25). -/
theorem Block.feedAt_rawInit (s : Block) (c : Config) (f : RawFrame) (k : Offset) (b : Byte) (now : Nat) :
    s.feedAt { c with rawInit := f } k b now = s.feedAt c k b now :=
  rfl

/-- RESET, FEED and IDLE, each under two values of RAW_INIT. -/
theorem AgreeBelow.step (h : AgreeBelow s.cursor.val s t) (hs : s.raw.wf = true) (ht : t.raw.wf = true)
    (hv : c.policy = .terminate → s.frameOk = true) (f : RawFrame) (x : Stimulus) :
    SameResult (s.step c x) (t.step { c with rawInit := f } x) := by
  unfold Block.step
  split_ifs
  · exact ⟨⟨rfl, rfl, rfl, rfl, rfl, rfl, fun _ ha => absurd ha (Nat.not_lt_zero _)⟩, rfl⟩
  · rw [Block.feed, Block.feed, Block.feedAt_rawInit, ← h.cursor]
    exact h.feedAt hs ht hv
  · exact ⟨h, rfl⟩

end Agreement

theorem SameButStale.config_eq {s t : State} (h : SameButStale s t) :
    t.config = { s.config with rawInit := t.config.rawInit } := by
  simp only [h.policy, h.tsWidth]

/-- Settles O53: the block's step gives results that agree, and the configuration and the inputs to come are as before. -/
theorem staleBytesDoNotMatter : Obligations.StaleBytesDoNotMatter := by
  intro s₁ s₂ t₁ t₂ h hs₁ hs₂ h₁ h₂
  obtain ⟨hb₁, hc₁, hx₁⟩ := step_eq_blockStep h₁
  obtain ⟨hb₂, hc₂, hx₂⟩ := step_eq_blockStep h₂
  have hnext : s₂.nextInput = s₁.nextInput := congrArg (List.headD · Stimulus.idle) h.stimulus.symm
  have hsame : SameResult (t₁.toBlock, t₁.event) (t₂.toBlock, t₂.event) := by
    rw [hb₁, hb₂, hnext, h.config_eq]
    exact h.agreeBelow.step hs₁.rawWf hs₂.rawWf hs₁.terminateOk s₂.config.rawInit s₁.nextInput
  obtain ⟨hagree, hevent⟩ := hsame
  exact ⟨{ hagree with
    policy := by rw [hc₁, hc₂, h.policy]
    tsWidth := by rw [hc₁, hc₂, h.tsWidth]
    stimulus := by rw [hx₁, hx₂, h.stimulus]
    current := hagree.bytes }, hevent⟩

end Sys2Proof.Machine
end

section
/-! SUPPORT. The timing tracker (44_timing.md): its two operations by themselves, what a completion writes to `last_ts` (R142), and
that time reaches nothing but `last_ts` and the interval of an event (R145). -/

namespace Sys2Proof.Machine

/-- A timestamp of TS_WIDTH bits is what the `now` port carries of it (R140). -/
theorem stamp_of_lt {c : Config} {now : Nat} (h : now < 2 ^ c.tsWidth) : stamp c now = now := Nat.mod_eq_of_lt h

/-- Settles O44: TS.INTERVAL reports `intervalOf`, which is the modular difference. -/
theorem tsIntervalIsModularDifference : Obligations.TsIntervalIsModularDifference := fun s now =>
  ⟨s.interval s.config now, rfl, intervalOf_eq_emod s.config.tsWidth now s.lastTs⟩

/-- Settles O45: TS.UPDATE writes `stamp`, which is `now` itself for a timestamp that fits. -/
theorem tsUpdateCapturesNow : Obligations.TsUpdateCapturesNow := by
  intro s now hfits
  have hupdate : exec (.tsUpdate now) s =
      .next { s with lastTs := stamp s.config now, event := .none, value := .none } := rfl
  rw [hupdate, stamp_of_lt hfits]

/-- A feed step moves `last_ts` exactly when it has an event (R142). -/
theorem Block.feedAt_lastTs_eq (s : Block) (c : Config) (k : Offset) (b : Byte) (now : Nat) :
    (s.feedAt c k b now).1.lastTs = if (s.feedAt c k b now).2 = .none then s.lastTs else stamp c now := by
  by_cases hends : s.EndsFrame c k b
  · obtain ⟨ev, hne, hr⟩ := hends.feedAt now
    simp [hr, hne]
  · have hev := (Block.feedAt_advances hends now).2
    rw [if_pos hev]
    exact s.feedAt_lastTs c k b now hev

/-- Settles O31: the step on a byte is `feedAt` at the cursor. -/
theorem completionsMoveTimestamp : Obligations.CompletionsMoveTimestamp := fun s b now rest hx =>
  ⟨_, step_feed s b now rest hx, s.feedAt_lastTs_eq s.config s.cursor b now⟩

/-- The part of `State.forgetTime` that the block holds: `last_ts`. -/
def Block.forgetTime (s : Block) : Block := { s with lastTs := 0 }

/-- The part of `State.forgetTime` in the configuration: TS_WIDTH. -/
def forgetWidth (c : Config) : Config := { c with tsWidth := 0 }

/-- The part of `State.forgetTime` in an input: `now`. -/
def Stimulus.forgetTime (x : Stimulus) : Stimulus := { x with now := 0 }

/-- A result of the block without time: neither `last_ts` nor the interval of the event. -/
def forgetResultTime (r : Result) : Result := (r.1.forgetTime, r.2.forgetTime)

@[simp] theorem FrameEvent.forgetTime_forgetTime (ev : FrameEvent) : ev.forgetTime.forgetTime = ev.forgetTime := by
  cases ev <;> rfl

@[simp] theorem State.forgetTime_toBlock (s : State) : s.forgetTime.toBlock = s.toBlock.forgetTime := rfl

@[simp] theorem State.forgetTime_config (s : State) : s.forgetTime.config = forgetWidth s.config := rfl

@[simp] theorem State.forgetTime_stimulus (s : State) : s.forgetTime.stimulus = s.stimulus.map Stimulus.forgetTime := rfl

@[simp] theorem State.forgetTime_forgetTime (s : State) : s.forgetTime.forgetTime = s.forgetTime := by
  simp [State.forgetTime]

theorem State.put_forgetTime (s : State) (r : Result) : (s.put r).forgetTime = s.forgetTime.put (forgetResultTime r) := rfl

theorem State.takeInput_forgetTime (s : State) : s.takeInput.forgetTime = s.forgetTime.takeInput := by
  simp [State.forgetTime, State.takeInput, List.map_tail]

/-- The absent input of an IDLE step has the time 0 already. -/
theorem State.nextInput_forgetTime (s : State) : s.forgetTime.nextInput = s.nextInput.forgetTime := by
  rw [State.nextInput, State.nextInput, State.forgetTime_stimulus]
  cases s.stimulus <;> rfl

section BlankedTime

variable (s : Block) (c : Config) (k : Offset) (b : Byte) (now m : Nat)

/-- The decision and the decoded bytes are taken from `frame_ok`, `err`, `acc` and `raw`. -/
theorem Block.endOfFrame_forgetTime :
    forgetResultTime (s.forgetTime.endOfFrame (forgetWidth c) m) = forgetResultTime (s.endOfFrame c now) := by
  have hf : s.forgetTime.frameOk = s.frameOk := rfl
  have he : s.forgetTime.err = s.err := rfl
  have hcsum : s.forgetTime.csumOk = s.csumOk := rfl
  unfold Block.endOfFrame
  rw [hf, he, hcsum]
  split_ifs <;> rfl

/-- The case of a feed step depends on the position, the policy, `frame_ok`, `synced` and the byte, so it is the same with time
blanked. -/
theorem Block.feedAt_forgetTime :
    forgetResultTime (s.forgetTime.feedAt (forgetWidth c) k b m) = forgetResultTime (s.feedAt c k b now) := by
  rcases s.feedAt_cases c k b now with
    ⟨hk, hf, hc, hr⟩ | ⟨-, hf, hc, hp, hr⟩ | ⟨-, hf, hc, hp, hr⟩ | ⟨hk, hf, hp, hr⟩ | ⟨rfl | ⟨hf, hp⟩, hr⟩
  case inl => rw [hr, s.forgetTime.feedAt_passes (forgetWidth c) k b m hf hc hk]; rfl
  case inr.inl => rw [hr, s.forgetTime.feedAt_fails_terminate (forgetWidth c) k b m hf hc hp]; rfl
  case inr.inr.inl => rw [hr, s.forgetTime.feedAt_fails_collect (forgetWidth c) k b m hf hc hp]; rfl
  case inr.inr.inr.inl => rw [hr, s.forgetTime.feedAt_invalid_collect (forgetWidth c) k b m hf hp hk]; rfl
  case inr.inr.inr.inr.inl =>
    rw [hr, s.forgetTime.feedAt_csum (forgetWidth c) b m]
    exact (s.store 14 b).endOfFrame_forgetTime c now m
  case inr.inr.inr.inr.inr =>
    rw [hr, s.forgetTime.feedAt_invalid_terminate (forgetWidth c) k b m hf hp]
    exact (s.store k b).endOfFrame_forgetTime c now m

/-- RESET, FEED and IDLE alike. -/
theorem Block.step_forgetTime (x : Stimulus) :
    forgetResultTime (s.forgetTime.step (forgetWidth c) x.forgetTime) = forgetResultTime (s.step c x) := by
  have hr : x.forgetTime.rst = x.rst := rfl
  have hv : x.forgetTime.inValid = x.inValid := rfl
  unfold Block.step
  rw [hr, hv]
  split_ifs
  · rfl
  · exact s.feedAt_forgetTime c s.cursor x.data x.now 0
  · rfl

end BlankedTime

/-- A step from the blanked state gives the blanked result: the commuting square of R145. -/
theorem step_forgetTime {s t : State} (h : step s = .next t) :
    ∃ u, step s.forgetTime = .next u ∧ u.forgetTime = t.forgetTime := by
  rw [step_eq] at h
  obtain rfl := Host.Outcome.next.inj h
  refine ⟨_, step_eq s.forgetTime, ?_⟩
  rw [State.put_forgetTime, State.put_forgetTime, ← State.takeInput_forgetTime, State.forgetTime_forgetTime,
    State.nextInput_forgetTime, State.forgetTime_toBlock, State.forgetTime_config, Block.step_forgetTime]

/-- A frame accepted at the end of a frame is the `DecodedFrame` of the block as it stands (R115). -/
theorem Block.eq_decodedFrame_of_endOfFrame {s : Block} {c : Config} {now : Nat} {d : DecodedFrame}
    (h : (s.endOfFrame c now).2 = .decoded d) : d = s.decodedFrame c now := by
  rcases s.endOfFrame_cases c now with ⟨-, -, hr⟩ | ⟨-, -, hr⟩ | ⟨-, -, hr⟩ | ⟨-, -, hr⟩
  case inr.inr.inr =>
    rw [hr] at h
    exact (FrameEvent.decoded.inj h).symm
  all_goals simp [hr] at h

/-- The interval of a `Decoded` step is the one from the `last_ts` held at its entry (R141). -/
theorem interval_of_step_decoded {s t : State} {d : DecodedFrame} (h : step s = .next t) (hd : t.event = .decoded d) :
    d.interval = intervalOf s.config.tsWidth s.nextInput.now s.lastTs := by
  obtain ⟨-, -, u, rfl, ⟨-, -, -, -, rfl⟩ | ⟨-, rfl⟩⟩ := step_event s t h (by simp [hd])
  · simp at hd
  · rw [Block.eq_decodedFrame_of_endOfFrame hd]
    rfl

/-- Of width 0 there is one timestamp, and so one interval (R145). -/
theorem intervalOf_width_zero (now last : Nat) : intervalOf 0 now last = 0 := Nat.mod_one _

/-- Settles O54: two states with the same blanked state step to the same blanked state. -/
theorem timeDoesNotAffectDecoding : Obligations.TimeDoesNotAffectDecoding := by
  refine ⟨fun s₁ s₂ t₁ t₂ hs h₁ h₂ => ?_, fun s t d hw h hd => ?_⟩
  · obtain ⟨u₁, hu₁, ht₁⟩ := step_forgetTime h₁
    obtain ⟨u₂, hu₂, ht₂⟩ := step_forgetTime h₂
    rw [hs, hu₂] at hu₁
    obtain rfl := Host.Outcome.next.inj hu₁
    exact ht₁.symm.trans ht₂
  · rw [interval_of_step_decoded h hd, hw, intervalOf_width_zero]

end Sys2Proof.Machine
end

section
/-! SUPPORT. Events as this block's exceptions (60_exceptions.md): what a completion changes (R157), and which byte raises which error
under TERMINATE (R150 to R153). -/

namespace Sys2Proof.Machine

/-- A step with an event leaves the epilogue of the block with its byte stored, whatever the event (R157). -/
theorem step_event_eq_epilogue_store {s t : State} (h : step s = .next t) (he : t.event ≠ .none) :
    t = s.takeInput.put ((s.store s.cursor s.nextInput.data).epilogue s.config s.nextInput.now, t.event) := by
  obtain ⟨-, -, u, rfl, ⟨-, -, -, -, rfl⟩ | ⟨-, rfl⟩⟩ := step_event s t h he
  · rfl
  · obtain ⟨ev, -, hev⟩ := (s.store s.cursor s.nextInput.data).endOfFrame_epilogue s.config s.nextInput.now
    rw [hev]
    rfl

/-- Settles O27: the epilogue after the store is the state the statement writes out. -/
theorem completionChangesOnlyTheEpilogue : Obligations.CompletionChangesOnlyTheEpilogue := by
  intro s t h he
  obtain ⟨hr, hv, -⟩ := step_event s t h he
  obtain ⟨-, -, hnext⟩ := completionStartsFreshFrame s t h he
  exact ⟨hr, hv, step_event_eq_epilogue_store h he, hnext⟩

/-- The three kinds of error, on a valid frame under TERMINATE: a failing check raises its own reason, and the fifteenth byte
`ChecksumMismatch`; no other byte raises one (R150). -/
theorem Block.feedAt_rejected_iff {s : Block} {c : Config} {k : Offset} {b : Byte} (now : Nat) (r : Reason)
    (hw : s.raw.wf = true) (hf : s.frameOk = true) (hp : c.policy = .terminate) :
    (∃ raw, (s.feedAt c k b now).2 = .rejected ⟨r, raw⟩) ↔
      (s.failsAt k b = true ∧ failReport k = r) ∨
        (k = 14 ∧ .checksumMismatch = r ∧ (s.acc = 0x00#8 ∨ s.acc ≠ b)) := by
  by_cases hk : k = 14
  · have hpass : s.failsAt k b = false := s.failsAt_of_three_le b (by simp [hk])
    rw [hpass, hk, Block.feedAt_csum, Block.endOfFrame_valid (s.store 14 b) c now hf, Block.csumOk_store s b hw]
    by_cases hx : s.acc = 0x00#8 ∨ s.acc ≠ b
    · have hbad : ¬ (s.acc ≠ 0x00#8 ∧ s.acc = b) := by tauto
      simp [hbad, hx]
    · have hgood : s.acc ≠ 0x00#8 ∧ s.acc = b := by tauto
      rw [if_pos (decide_eq_true hgood)]
      simp [hx]
  · cases hc : s.failsAt k b
    · simp [Block.feedAt_passes s c k b now hf hc hk, hk]
    · simp [Block.feedAt_fails_terminate s c k b now hf hc hp, hk]

section Reasons

variable (s : Block) (k : Offset) (b : Byte)

theorem Block.fails_reports_prefix_iff :
    (s.failsAt k b = true ∧ failReport k = .prefixMismatch) ↔ (k.val = 0 ∧ b ≠ 0x01#8) ∨ (k.val = 1 ∧ b ≠ 0x03#8) := by
  by_cases hk : k.val = 2 <;> simp [Block.failsAt, failReport, hk]

theorem Block.fails_reports_sequence_iff :
    (s.failsAt k b = true ∧ failReport k = .unexpectedInitialSequence) ↔ k.val = 2 ∧ s.synced = false ∧ b ≠ 0x02#8 := by
  by_cases hk : k.val = 2 <;> simp [Block.failsAt, failReport, hk]

/-- No check reports the checksum (R153: only the fifteenth byte does). -/
theorem failReport_ne_checksum : failReport k ≠ .checksumMismatch := by
  unfold failReport
  split <;> simp

end Reasons

/-- Settles O30: under TERMINATE the invariant makes the frame valid, so `Block.feedAt_rejected_iff` speaks of the step; it is read
once for each reason. -/
theorem rejectionConditions : Obligations.RejectionConditions := by
  intro s b now rest hs hp hx
  have hrej (r : Reason) := Block.feedAt_rejected_iff (k := s.cursor) (b := b) now r hs.rawWf (hs.terminateOk hp) hp
  refine ⟨_, step_feed s b now rest hx, (hrej _).trans ?_, (hrej _).trans ?_, (hrej _).trans ?_⟩
  · simp [Block.fails_reports_prefix_iff]
  · simp [Block.fails_reports_sequence_iff]
  · simp [failReport_ne_checksum, Offset.eq_fourteen_iff]

end Sys2Proof.Machine
end

section
/-! SUPPORT. RESET (70_reset_and_hazards.md): its values (R175) and its priority over a byte (R176). -/

namespace Sys2Proof.Machine

/-- RESET at `now`, as an operation of the block (R175). -/
theorem exec_reset (s : State) (now : Nat) :
    exec (.reset now) s = .next (s.put (Block.reset s.config now).silent) := rfl

/-- RawFrame after RESET is RAW_INIT, offset by offset (10_state.md R22, D10). -/
@[simp] theorem Block.reset_rawAt (c : Config) (now : Nat) (k : Offset) : (Block.reset c now).rawAt k = c.rawInit[k] :=
  Memory.read_ofFrame c.rawInit k

/-- Settles O8: every clause but the two about RawFrame reads a value of `Block.reset`; those two are about `Memory.ofFrame`. -/
theorem resetStep : Obligations.ResetStep := by
  intro s now
  refine ⟨_, exec_reset s now, rfl, rfl, rfl, rfl, rfl, rfl, ?raw, ?canonical, rfl, rfl, rfl⟩
  case raw => exact Block.reset_rawAt s.config now
  case canonical => exact Memory.wf_ofFrame s.config.rawInit

/-- Settles O10: the selector with `rst` set decodes to RESET, whatever `in_valid` and the cursor (R57). -/
theorem resetHasPriorityOverByte : Obligations.ResetHasPriorityOverByte := by
  intro s v b now rest h
  exact stepRunsDecodedInstruction.1 s _ rest (.reset now) h (congrArg Except.ok (decodeSel6_reset v s.cursor b now))

end Sys2Proof.Machine
end
